-- ==== Sys2Proof/Word.lean ====
section
/-! DEFINITION. The word types of the WMZ-TE (spec 00_scope.md R7, R8, R13): bit patterns, bit 0 the least significant. -/

namespace Sys2Proof

/-- A command word (30_encoding.md R110), or the bit pattern of a binary32 value (00_scope.md R13). -/
abbrev Word32 := BitVec 32

/-- A register of the window (10_state.md section 2.1), or the bit pattern of a binary64 value (00_scope.md R13). -/
abbrev Word64 := BitVec 64

end Sys2Proof
end

