-- ==== Sys2Proof/Syntax.lean ====
section
/-! DEFINITION. The ten commands of 30_encoding.md R113, one constructor per row of the opcode table. -/

namespace Sys2Proof

/-- A channel bank: 0 is Y, 1 is U, 2 is V; bank 3 does not exist (10_state.md R31, 30_encoding.md R112). -/
inductive Channel where
  | y
  | u
  | v
deriving DecidableEq, Repr

/-- The engine commands (30_encoding.md R113). -/
inductive Instr where
  /-- `RGB2YUV`, 40_color.md R136. -/
  | rgb2yuv
  /-- `YUV2RGB`, 40_color.md R137. -/
  | yuv2rgb
  /-- `MAPGEN`, 41_geometry_blockmap.md R157. -/
  | mapgen
  /-- `DWT ch, m`, 42_dwt.md R174: `m` selects the block map. -/
  | dwt (ch : Channel) (m : Bool)
  /-- `IDWT ch, m`, 42_dwt.md R177. -/
  | idwt (ch : Channel) (m : Bool)
  /-- `DCTINIT`, 43_dct.md R193. -/
  | dctinit
  /-- `DCT ch, k`, 43_dct.md R195: `k` is the block number. -/
  | dct (ch : Channel) (k : Nat)
  /-- `IDCT`, 43_dct.md R196. -/
  | idct
  /-- `SVD`, 44_svd.md R212. -/
  | svd
  /-- `ISVD`, 44_svd.md R214. -/
  | isvd
deriving DecidableEq, Repr

end Sys2Proof
end

