-- ==== Sys2Proof/WellFormed.lean ====
section
/-! DEFINITION. Which terms of `Instr` are commands: the operand ranges of 30_encoding.md R112. -/

namespace Sys2Proof

/-- The operand ranges of 30_encoding.md R112. CH has the three legal values by its type `Channel`, M both values by
its type `Bool`; K is 'an unsigned 24-bit immediate', 0 to 2^24 - 1. -/
def Instr.wf : Instr → Bool
  | .rgb2yuv => true
  | .yuv2rgb => true
  | .mapgen => true
  | .dwt _ _ => true
  | .idwt _ _ => true
  | .dctinit => true
  | .dct _ k => decide (k < 2 ^ 24)
  | .idct => true
  | .svd => true
  | .isvd => true

end Sys2Proof
end

