-- ==== Sys2Proof/Decode.lean ====
section
/-! DEFINITION. Decoding and encoding of command words (30_encoding.md R110 to R115). -/

namespace Sys2Proof

/-- Why a word is illegal (30_encoding.md R114). -/
inductive DecodeError where
  /-- OPC is 0x00 or one of 0x0B to 0x3F. -/
  | unknownOpcode
  /-- A 'must be 0' bit of format N or C is 1. -/
  | mustBeZero
  /-- CH = 3 in format C or B. -/
  | badChannel
deriving DecidableEq, Repr

/-- The channel bank a two-bit CH field names (30_encoding.md R112). -/
def channelOfBits (ch : BitVec 2) : Option Channel :=
  match ch.toNat with
  | 0 => some .y
  | 1 => some .u
  | 2 => some .v
  | _ => none

/-- The number of a channel bank, its CH field (10_state.md R31, 30_encoding.md R112). -/
def channelNumber : Channel → Nat
  | .y => 0
  | .u => 1
  | .v => 2

/-- Format N (30_encoding.md R111): bits 31:6 must be 0. -/
def decodeN (w : Word32) (i : Instr) : Except DecodeError Instr :=
  if w.extractLsb' 6 26 = 0 then .ok i else .error .mustBeZero

/-- Format C (30_encoding.md R111): bits 31:9 must be 0, M is bit 8, CH is bits 7:6. -/
def decodeC (w : Word32) (i : Channel → Bool → Instr) : Except DecodeError Instr :=
  if w.extractLsb' 9 23 = 0 then
    match channelOfBits (w.extractLsb' 6 2) with
    | some ch => .ok (i ch (w.getLsbD 8))
    | none => .error .badChannel
  else .error .mustBeZero

/-- Format B (30_encoding.md R111): K is bits 31:8, CH is bits 7:6. -/
def decodeB (w : Word32) (i : Channel → Nat → Instr) : Except DecodeError Instr :=
  match channelOfBits (w.extractLsb' 6 2) with
  | some ch => .ok (i ch (w.extractLsb' 8 24).toNat)
  | none => .error .badChannel

/-- `Decode(w)` of 30_encoding.md R115, a total function on 32-bit words. -/
def decode (w : Word32) : Except DecodeError Instr :=
  match (w.extractLsb' 0 6).toNat with
  | 0x01 => decodeN w .rgb2yuv
  | 0x02 => decodeN w .yuv2rgb
  | 0x03 => decodeN w .mapgen
  | 0x04 => decodeC w .dwt
  | 0x05 => decodeC w .idwt
  | 0x06 => decodeN w .dctinit
  | 0x07 => decodeB w .dct
  | 0x08 => decodeN w .idct
  | 0x09 => decodeN w .svd
  | 0x0A => decodeN w .isvd
  | _ => .error .unknownOpcode

/-- OPC of a command (30_encoding.md R113). -/
def opcode : Instr → Nat
  | .rgb2yuv => 0x01
  | .yuv2rgb => 0x02
  | .mapgen => 0x03
  | .dwt _ _ => 0x04
  | .idwt _ _ => 0x05
  | .dctinit => 0x06
  | .dct _ _ => 0x07
  | .idct => 0x08
  | .svd => 0x09
  | .isvd => 0x0A

/-- Format N: OPC alone (30_encoding.md R111, R113). -/
def encodeN (opc : Nat) : Word32 := BitVec.ofNat 32 opc

/-- Format C: OPC + (ch << 6) + (m << 8). -/
def encodeC (opc : Nat) (ch : Channel) (m : Bool) : Word32 :=
  BitVec.ofNat 32 (opc + channelNumber ch * 2 ^ 6 + m.toNat * 2 ^ 8)

/-- Format B: OPC + (ch << 6) + (k << 8). -/
def encodeB (opc : Nat) (ch : Channel) (k : Nat) : Word32 :=
  BitVec.ofNat 32 (opc + channelNumber ch * 2 ^ 6 + k * 2 ^ 8)

/-- The command word of a well-formed command (30_encoding.md R111, R113). -/
def encode (i : Instr) : Word32 :=
  match i with
  | .rgb2yuv => encodeN (opcode i)
  | .yuv2rgb => encodeN (opcode i)
  | .mapgen => encodeN (opcode i)
  | .dwt ch m => encodeC (opcode i) ch m
  | .idwt ch m => encodeC (opcode i) ch m
  | .dctinit => encodeN (opcode i)
  | .dct ch k => encodeB (opcode i) ch k
  | .idct => encodeN (opcode i)
  | .svd => encodeN (opcode i)
  | .isvd => encodeN (opcode i)

/-- What the decoder reads from the word whose low `nbits` bits are `w`'s; every command is the one 32-bit word the host
writes to CMD (30_encoding.md R110), so there is no byte order to lay out. -/
def decodeTableWord (nbits w : Nat) : Option Instr :=
  match decode (BitVec.ofNat 32 (w % 2 ^ nbits)) with
  | .ok i => some i
  | .error _ => none

end Sys2Proof
end

