-- ==== Sys2Proof/Config.lean ====
section
/-! DEFINITION. What an implementation fixes (00_scope.md R6) and the free values of 93_implementation_defined.md. A constant
declared `opaque` has no body: nothing can be proved of its value, so a theorem holds whatever the value is. -/

namespace Sys2Proof

/-- The constant of the ID register: magic 'WMZT', revision 1.0 (10_state.md R35). -/
def Config.idWord : Word64 := 0x00000100574D5A54

/-- The default of the parameter `MAXPIX` (00_scope.md R6). -/
def Config.maxPixDefault : BitVec 32 := 4194304

/-- The default of the parameter `BMAX` (00_scope.md R6). -/
def Config.bMaxDefault : BitVec 16 := 16

/-- Which instance of the parameter `BASIS1D` the engine's basis generator holds (00_scope.md R6, 43_dct.md R190). -/
inductive BasisRom where
  /-- The default: the correctly rounded values. -/
  | correctlyRounded
  /-- Some other instance, number `n`: free values within the parameter's bound. -/
  | other (n : Nat)
deriving DecidableEq, Repr

/-- An uninterpreted function of (d, i, k) for each instance number. The instance `other n` of `BASIS1D` is this function where
its values are admissible (Machine/Basis.lean). DESIGN CHOICE (log 5): a free value. -/
opaque Config.freeBasis : Nat → Nat → Nat → Nat → Word64

/-- The thin factorisation `SVD_SOLVER` returns (44_svd.md R211), row-major: `u` is bh×r, `s` has r values, `v` is bw×r. -/
structure SvdTriple where
  u : List Word64
  s : List Word64
  v : List Word64
deriving DecidableEq, Repr

/-- An uninterpreted function of (bh, bw, M): `none` is `fail`. The parameter `SVD_SOLVER` is this function where its answer
has the properties of 44_svd.md R211, and `fail` elsewhere (Machine/Svd.lean). -/
opaque Config.freeSolver : Nat → Nat → List Word64 → Option SvdTriple

/-- The unspecified contents number `seed` of element `index` of buffer `buffer` (20_memory.md R100, 70_reset_and_hazards.md
R292, 93_implementation_defined.md U2 and U8): the same at every read. -/
opaque Config.freeElem (seed buffer index : Nat) : Word64

/-- The floating-point operations whose NaN results have a free sign and payload. -/
inductive FpOp where
  | add
  | sub
  | mul
  | div
  | widen
  | narrow
deriving DecidableEq, Repr

/-- Sign and payload of a binary32 NaN result (00_scope.md R15, 93_implementation_defined.md U3): free, a function of the
operation and its operands. -/
opaque Config.freeNan32 : FpOp → Word64 → Word64 → Word32

/-- Sign and payload of a binary64 NaN result, in the same form. -/
opaque Config.freeNan64 : FpOp → Word64 → Word64 → Word64

/-- The output of `Clip16` for a NaN (40_color.md R135, 93_implementation_defined.md U4): free, 'a function of the input bit
pattern'. -/
opaque Config.freeClip : Word32 → BitVec 16

end Sys2Proof
end

