-- ==== Sys2Proof/Machine/State.lean ====
section
/-! DEFINITION. The state of the WMZ-TE (10_state.md R30 to R69) as plain data, its faults and refusals, and its reset. -/

namespace Sys2Proof.Machine

/-- The command faults of 60_exceptions.md R251, codes 1 to 7. Code 0 ('none') is the absence of one. -/
inductive CmdFault where
  | illegalCmd
  | badImg
  | badShape
  | noMap
  | blkRange
  | noDct
  | noSvd
deriving DecidableEq, Repr

/-- The access errors of 60_exceptions.md R261, codes 1 to 6. Code 0 ('none recorded') is the absence of one. -/
inductive AccError where
  /-- Code 1: not allowed while BUSY. -/
  | busy
  /-- Code 2: BUFIDX at or above the capacity of the selected buffer. -/
  | indexRange
  /-- Code 3: illegal buffer selection. -/
  | badSelect
  /-- Code 4: BUFDATA write to BMAP or PHI. -/
  | readOnly
  /-- Code 5: width, alignment or offset. -/
  | badAccess
  /-- Code 6: CMD write while FAULT = 1. -/
  | faultPending
deriving DecidableEq, Repr

/-- CAP (10_state.md R36): the parameters MAXPIX and BMAX (00_scope.md R6). No step writes it. -/
structure Capability where
  maxPix : BitVec 32
  bMax : BitVec 16
deriving DecidableEq, Repr

/-- CTRL (10_state.md R37). SRST holds nothing: it reads 0. -/
structure Ctrl where
  ieDone : Bool
  ieFault : Bool
deriving DecidableEq, Repr

/-- STATUS (10_state.md R38). -/
structure Status where
  busy : Bool
  done : Bool
  fault : Bool
  svdFail : Bool
  accErr : Bool
  mapValid : Bool
  phiValid : Bool
  dctValid : Bool
  svdValid : Bool
deriving DecidableEq, Repr

/-- FAULTINFO (10_state.md R39). -/
structure FaultInfo where
  code : Option CmdFault
  cmdWord : Word32
deriving DecidableEq, Repr

/-- A pair of 16-bit dimensions: IMGDIM (R41), BLKREQ (R42) and PHISHAPE (R47) of 10_state.md. -/
structure Dims where
  w : BitVec 16
  h : BitVec 16
deriving DecidableEq, Repr

/-- DCTCTX (10_state.md R46): the block the last DCT was bound to. -/
structure DctCtx where
  ch : Channel
  k : BitVec 24
deriving DecidableEq, Repr

/-- BUFSEL (10_state.md R48). -/
structure BufSel where
  buf : BitVec 4
  ch : BitVec 2
deriving DecidableEq, Repr

/-- The buffers of 10_state.md R53, one name per bank, and the hidden factors of R63. -/
inductive Buf where
  | pixin
  | pixout
  | alpha
  | chan (c : Channel)
  | sba (c : Channel)
  | sbh (c : Channel)
  | sbv (c : Channel)
  | sbd (c : Channel)
  | bmap
  | coef
  | sval
  | phi
  | svdu
  | svdv
deriving DecidableEq, Repr

/-- The contents of one buffer element: a value somebody wrote, zero-extended to 64 bits, or an unspecified value, number
`seed` of that element's free values (20_memory.md R100, 70_reset_and_hazards.md R292). -/
inductive Elem where
  | known (v : Word64)
  | free (seed : Nat)
deriving DecidableEq, Repr

/-- One buffer: (index, contents) pairs, indices strictly rising, none equal to what an unlisted index holds. -/
abbrev Buffer := List (Nat × Elem)

/-- The three banks of a channel buffer (10_state.md R31). -/
structure Banks where
  y : Buffer
  u : Buffer
  v : Buffer
deriving DecidableEq, Repr

/-- One event of the total order of 20_memory.md R94. -/
inductive Event where
  /-- A host read of `bits` bits at byte offset `off` of the register window (20_memory.md R81, R82). -/
  | read (off : BitVec 8) (bits : Nat)
  /-- A host write of `bits` bits of the value `v` (R81, R83). -/
  | write (off : BitVec 8) (bits : Nat) (v : Word64)
  /-- The engine's completion step (30_encoding.md R118); without effect while BUSY = 0, when it is not enabled. -/
  | complete
  /-- The assertion of rst_n (70_reset_and_hazards.md R290). -/
  | hardReset
deriving DecidableEq, Repr

/-- The state of the machine. ID, BLKSHAPE, WAVEDIM and TOTBLK are constants or pure functions of other registers, CMD and
BUFDATA hold nothing (10_state.md R35, R40, R43 to R45, R50): they have no field. -/
structure State where
  /-- CAP, 10_state.md R36. -/
  cap : Capability
  /-- CTRL, R37. -/
  ctrl : Ctrl
  /-- STATUS, R38. -/
  status : Status
  /-- FAULTINFO, R39. -/
  faultInfo : FaultInfo
  /-- ACCINFO, R51. -/
  accInfo : Option AccError
  /-- IMGDIM, R41. -/
  imgDim : Dims
  /-- BLKREQ, R42. -/
  blkReq : Dims
  /-- DCTCTX, R46. -/
  dctCtx : DctCtx
  /-- PHISHAPE, R47. -/
  phiShape : Dims
  /-- BUFSEL, R48. -/
  bufSel : BufSel
  /-- BUFIDX, R49. -/
  bufIdx : BitVec 32
  /-- PIXIN, R54. -/
  pixin : Buffer
  /-- PIXOUT, R55. -/
  pixout : Buffer
  /-- ALPHA, R56. -/
  alpha : Buffer
  /-- CHAN, R57. -/
  chan : Banks
  /-- SBA (cA), R58. -/
  sba : Banks
  /-- SBH (cH), R58. -/
  sbh : Banks
  /-- SBV (cV), R58. -/
  sbv : Banks
  /-- SBD (cD), R58. -/
  sbd : Banks
  /-- BMAP, R59. -/
  bmap : Buffer
  /-- COEF, R60. -/
  coef : Buffer
  /-- SVAL, R61. -/
  sval : Buffer
  /-- PHI, R62. -/
  phi : Buffer
  /-- SVDU, R63: element (a, t) of the BH×r matrix at index a*r + t. -/
  svdu : Buffer
  /-- SVDV, R63: element (b, t) of the BW×r matrix at index b*r + t. -/
  svdv : Buffer
  /-- CURCMD, R64. -/
  curCmd : Word32
  /-- The model's own: which instance of BASIS1D the generator holds (00_scope.md R6). No step writes it. -/
  basis : BasisRom
  /-- The model's own: the seed of the free values of elements nothing has written since the last hardware reset. -/
  unwrittenSeed : Nat
  /-- The model's own: the seed the next fresh set of free values gets. -/
  freeCount : Nat
  /-- The model's own: what the latest HostRead returned to the host (20_memory.md R82). -/
  hostData : Word64
  /-- The model's own: the events still to come (20_memory.md R94). -/
  events : List Event
deriving DecidableEq, Repr

/-- Where the machine stops. No rule of the spec stops it; the one constructor is for states no run reaches. -/
inductive Fault where
  /-- Raised by `step` when the engine is to complete the command in CURCMD and that word is illegal. Safe: CURCMD is
  loaded only with a word that decoded (30_encoding.md R117), so no run reaches it (log 15). -/
  | undecodableLatch (w : Word32)
deriving DecidableEq, Repr

/-- Where the model has no meaning for an instruction. -/
inductive Refusal where
  /-- Raised by a refused arm of `exec`; there is none. Safe. -/
  | notModelled (mnemonic : String)
deriving DecidableEq, Repr

/-- The outcome of a step of this machine. -/
abbrev Outcome := Host.Outcome State Fault Refusal

/-- A bank of a channel buffer. -/
def Banks.get (b : Banks) : Channel → Buffer
  | .y => b.y
  | .u => b.u
  | .v => b.v

/-- Replaces a bank. -/
def Banks.set (b : Banks) (c : Channel) (m : Buffer) : Banks :=
  match c with
  | .y => { b with y := m }
  | .u => { b with u := m }
  | .v => { b with v := m }

/-- The contents of a buffer by name. -/
def State.buf (s : State) : Buf → Buffer
  | .pixin => s.pixin
  | .pixout => s.pixout
  | .alpha => s.alpha
  | .chan c => s.chan.get c
  | .sba c => s.sba.get c
  | .sbh c => s.sbh.get c
  | .sbv c => s.sbv.get c
  | .sbd c => s.sbd.get c
  | .bmap => s.bmap
  | .coef => s.coef
  | .sval => s.sval
  | .phi => s.phi
  | .svdu => s.svdu
  | .svdv => s.svdv

/-- Replaces the contents of a buffer. -/
def State.setBuf (s : State) (b : Buf) (m : Buffer) : State :=
  match b with
  | .pixin => { s with pixin := m }
  | .pixout => { s with pixout := m }
  | .alpha => { s with alpha := m }
  | .chan c => { s with chan := s.chan.set c m }
  | .sba c => { s with sba := s.sba.set c m }
  | .sbh c => { s with sbh := s.sbh.set c m }
  | .sbv c => { s with sbv := s.sbv.set c m }
  | .sbd c => { s with sbd := s.sbd.set c m }
  | .bmap => { s with bmap := m }
  | .coef => { s with coef := m }
  | .sval => { s with sval := m }
  | .phi => { s with phi := m }
  | .svdu => { s with svdu := m }
  | .svdv => { s with svdv := m }

/-- What an element that no write and no removed command has touched since the last hardware reset holds: an unspecified
value (20_memory.md R100, 93_implementation_defined.md U2). -/
def State.unwritten (s : State) : Elem := .free s.unwrittenSeed

/-- STATUS after reset: idle, no fault, nothing valid (10_state.md R68). -/
def Status.reset : Status :=
  { busy := false, done := false, fault := false, svdFail := false, accErr := false, mapValid := false,
    phiValid := false, dctValid := false, svdValid := false }

/-- Three empty banks. -/
def Banks.empty : Banks := { y := [], u := [], v := [] }

/-- The machine right after a hardware reset (10_state.md R68, 70_reset_and_hazards.md R290), with the default parameters
(00_scope.md R6) and no event pending. CURCMD: DESIGN CHOICE 0 (log 11); the seeds, hostData and events are the model's own
(logs 2, 7, 8, 12). -/
def State.reset : State :=
  { cap := { maxPix := Config.maxPixDefault, bMax := Config.bMaxDefault }
    ctrl := { ieDone := false, ieFault := false }
    status := Status.reset
    faultInfo := { code := none, cmdWord := 0 }
    accInfo := none
    imgDim := { w := 0, h := 0 }
    blkReq := { w := 0, h := 0 }
    dctCtx := { ch := .y, k := 0 }
    phiShape := { w := 0, h := 0 }
    bufSel := { buf := 0, ch := 0 }
    bufIdx := 0
    pixin := []
    pixout := []
    alpha := []
    chan := Banks.empty
    sba := Banks.empty
    sbh := Banks.empty
    sbv := Banks.empty
    sbd := Banks.empty
    bmap := []
    coef := []
    sval := []
    phi := []
    svdu := []
    svdv := []
    curCmd := 0
    basis := .correctlyRounded
    unwrittenSeed := 0
    freeCount := 1
    hostData := 0
    events := [] }

end Sys2Proof.Machine
end

