-- ==== Sys2Proof/Machine/Flags.lean ====
section
/-! DEFINITION. The flags: the bits of STATUS (10_state.md R34, R38), what sets and clears them, and the interrupt line. -/

namespace Sys2Proof.Machine

/-- A bit at a place of a register: `b` at bit `n`, the rest 0. -/
def bitAt (n : Nat) (b : Bool) : Word64 := if b then BitVec.ofNat 64 (2 ^ n) else 0

/-- What a read of STATUS returns; reserved bits read 0 (10_state.md R38). -/
def packStatus (f : Status) : Word64 :=
  bitAt 0 f.busy ||| bitAt 1 f.done ||| bitAt 2 f.fault ||| bitAt 3 f.svdFail ||| bitAt 4 f.accErr ||| bitAt 8 f.mapValid |||
    bitAt 9 f.phiValid ||| bitAt 10 f.dctValid ||| bitAt 11 f.svdValid

/-- What a read of CTRL returns: SRST reads 0 (10_state.md R37). -/
def packCtrl (c : Ctrl) : Word64 := bitAt 1 c.ieDone ||| bitAt 2 c.ieFault

/-- A write to IMGDIM or BLKREQ clears MAP_VALID, DCT_VALID and SVD_VALID (10_state.md R38, R41, R42). -/
def clearGeometryFlags (f : Status) : Status := { f with mapValid := false, dctValid := false, svdValid := false }

/-- The first line of `Accept`: DONE is cleared (30_encoding.md R117). -/
def acceptFlags (f : Status) : Status := { f with done := false }

/-- The last line of `Accept`: the command is in flight (30_encoding.md R117). -/
def busyFlags (f : Status) : Status := { f with busy := true }

/-- The last line of `Complete`: BUSY is cleared and DONE set (30_encoding.md R118). -/
def completeFlags (f : Status) : Status := { f with busy := false, done := true }

/-- Completion of MAPGEN sets MAP_VALID (41_geometry_blockmap.md R157). -/
def mapFlags (f : Status) : Status := { f with mapValid := true }

/-- Building the basis sets PHI_VALID (43_dct.md R192). -/
def phiFlags (f : Status) : Status := { f with phiValid := true }

/-- Completion of DCT sets DCT_VALID (43_dct.md R195). -/
def dctFlags (f : Status) : Status := { f with dctValid := true }

/-- A successful SVD sets SVD_VALID and clears SVDFAIL (44_svd.md R212). -/
def svdDoneFlags (f : Status) : Status := { f with svdValid := true, svdFail := false }

/-- A failed SVD clears SVD_VALID and sets SVDFAIL (44_svd.md R212, R213). -/
def svdFailFlags (f : Status) : Status := { f with svdValid := false, svdFail := true }

/-- The host's write-one-to-clear write of STATUS: bits 1, 2 and 4 act (10_state.md R38, 20_memory.md R83). -/
def w1cFlags (v : Word64) (f : Status) : Status :=
  { f with
    done := f.done && !v.getLsbD 1
    fault := f.fault && !v.getLsbD 2
    accErr := f.accErr && !v.getLsbD 4 }

/-- The interrupt line (60_exceptions.md R259). -/
def State.irq (s : State) : Bool := (s.status.done && s.ctrl.ieDone) || (s.status.fault && s.ctrl.ieFault)

end Sys2Proof.Machine
end

