-- ==== Sys2Proof/Machine/Operands.lean ====
section
/-! DEFINITION. Where a command's operands are: the geometry of 41_geometry_blockmap.md R150 to R156, the indices of
20_memory.md R99, and the fields of a buffer element (10_state.md R54 to R62). All integers are naturals (00_scope.md R11). -/

namespace Sys2Proof.Machine

/-- Canonicalisation of a requested block dimension (41_geometry_blockmap.md R150). -/
def canon (r : Nat) : Nat :=
  let r1 := if r = 0 then 8 else r
  let r2 := if r1 % 2 = 1 then r1 + 1 else r1
  let r3 := max r2 4
  r3 / 2

/-- `MAXPIX` (00_scope.md R6), as CAP publishes it (10_state.md R36). -/
def State.maxPix (s : State) : Nat := s.cap.maxPix.toNat

/-- `BMAX` (00_scope.md R6), as CAP publishes it. -/
def State.bMax (s : State) : Nat := s.cap.bMax.toNat

/-- `IMGDIM.W` (10_state.md R41). -/
def State.width (s : State) : Nat := s.imgDim.w.toNat

/-- `IMGDIM.H` (10_state.md R41). -/
def State.height (s : State) : Nat := s.imgDim.h.toNat

/-- `W * H`, the extent of the pixel and channel buffers (10_state.md R53). -/
def State.pixels (s : State) : Nat := s.width * s.height

/-- `BLKSHAPE.BW` (10_state.md R43). -/
def State.bw (s : State) : Nat := canon s.blkReq.w.toNat

/-- `BLKSHAPE.BH` (10_state.md R43). -/
def State.bh (s : State) : Nat := canon s.blkReq.h.toNat

/-- The block area `A` (41_geometry_blockmap.md R151). -/
def State.area (s : State) : Nat := s.bw * s.bh

/-- `r = min(bw, bh)`, the number of singular values (44_svd.md). -/
def State.rank (s : State) : Nat := min s.bw s.bh

/-- `WAVEDIM.WWAVE` (10_state.md R44, 41_geometry_blockmap.md R152). -/
def State.wWave (s : State) : Nat := (s.width + 1) / 2

/-- `WAVEDIM.HWAVE`. -/
def State.hWave (s : State) : Nat := (s.height + 1) / 2

/-- `WWAVE * HWAVE`, the extent of the subbands and of the block map. -/
def State.waves (s : State) : Nat := s.wWave * s.hWave

/-- `TOTBLK` (10_state.md R45, 41_geometry_blockmap.md R153). -/
def State.totBlk (s : State) : Nat := (s.wWave / s.bw) * (s.hWave / s.bh)

/-- `IMG_OK` (41_geometry_blockmap.md R154). -/
def State.imgOk (s : State) : Bool :=
  decide (1 ≤ s.width) && decide (1 ≤ s.height) && decide (s.width * s.height ≤ s.maxPix)

/-- `SHAPE_OK` (41_geometry_blockmap.md R155). -/
def State.shapeOk (s : State) : Bool := decide (s.bw ≤ s.bMax) && decide (s.bh ≤ s.bMax)

/-- `PHI_OK` (43_dct.md R191): the basis slot matches the block shape. -/
def State.phiOk (s : State) : Bool :=
  s.status.phiValid && decide (s.phiShape.w.toNat = s.bw) && decide (s.phiShape.h.toNat = s.bh)

/-- The map function `MapIdx(x, y)` for a grid of `wd` columns and `ht` rows and the block shape (bw, bh)
(41_geometry_blockmap.md R156). -/
def mapIdx (wd ht bw bh x y : Nat) : Nat :=
  let allocW := wd / bw * bw
  let allocH := ht / bh * bh
  let marginW := wd - allocW
  if allocH ≤ y then y * wd + x
  else if allocW ≤ x then allocW * allocH + y * marginW + (x - allocW)
  else
    let brow := y / bh
    let bcol := x / bw
    let bx := x % bw
    let bY := y % bh
    brow * (allocW * bh) + bcol * (bw * bh) + bY * bw + bx

/-- The pixel index `y*W + x` (20_memory.md R99). -/
def pixelIndex (w x y : Nat) : Nat := y * w + x

/-- The tensor index of φ[i,j,x,y] for the shape (bw, bh) (10_state.md R62). -/
def tensorIndex (bw bh i j x y : Nat) : Nat := ((i * bw + j) * bh + x) * bw + y

/-- The number of bits of an element (10_state.md R53, R63). -/
def elemBits : Buf → Nat
  | .pixin => 40
  | .pixout => 64
  | .alpha => 16
  | .chan _ => 32
  | .sba _ => 32
  | .sbh _ => 32
  | .sbv _ => 32
  | .sbd _ => 32
  | .bmap => 32
  | .coef => 64
  | .sval => 64
  | .phi => 64
  | .svdu => 64
  | .svdv => 64

/-- A buffer bank's own number, by which the free values of its elements are told apart. -/
def bufCode : Buf → Nat
  | .pixin => 0
  | .pixout => 1
  | .alpha => 2
  | .chan c => 3 + 16 * channelNumber c
  | .sba c => 4 + 16 * channelNumber c
  | .sbh c => 5 + 16 * channelNumber c
  | .sbv c => 6 + 16 * channelNumber c
  | .sbd c => 7 + 16 * channelNumber c
  | .bmap => 8
  | .coef => 9
  | .sval => 10
  | .phi => 11
  | .svdu => 12
  | .svdv => 13

/-- An element's own bits, the rest 0: `Pack` and `Unpack` of 20_memory.md R86 and R89. -/
def packElem (b : Buf) (v : Word64) : Word64 := (v.setWidth (elemBits b)).setWidth 64

/-- The element buffer that BUFSEL selects, `SelLegal` of 20_memory.md R87 deciding whether there is one. -/
def selectBuf (sel : BufSel) : Option Buf :=
  match sel.buf.toNat with
  | 0 => some .pixin
  | 1 => some .pixout
  | 2 => some .alpha
  | 3 => (channelOfBits sel.ch).map Buf.chan
  | 4 => (channelOfBits sel.ch).map Buf.sba
  | 5 => (channelOfBits sel.ch).map Buf.sbh
  | 6 => (channelOfBits sel.ch).map Buf.sbv
  | 7 => (channelOfBits sel.ch).map Buf.sbd
  | 8 => some .bmap
  | 9 => some .coef
  | 10 => some .sval
  | 11 => some .phi
  | _ => none

/-- `Capacity(b)` (10_state.md R53); the hidden factors have room for their largest shape (R63). -/
def State.capacity (s : State) : Buf → Nat
  | .pixin => s.maxPix
  | .pixout => s.maxPix
  | .alpha => s.maxPix
  | .chan _ => s.maxPix
  | .sba _ => s.maxPix
  | .sbh _ => s.maxPix
  | .sbv _ => s.maxPix
  | .sbd _ => s.maxPix
  | .bmap => s.maxPix
  | .coef => s.bMax ^ 2
  | .sval => s.bMax
  | .phi => s.bMax ^ 4
  | .svdu => s.bMax ^ 2
  | .svdv => s.bMax ^ 2

/-- BMAP and PHI are read-only for the host (10_state.md R59, R62). -/
def hostReadOnly : Buf → Bool
  | .bmap => true
  | .phi => true
  | .pixin => false
  | .pixout => false
  | .alpha => false
  | .chan _ => false
  | .sba _ => false
  | .sbh _ => false
  | .sbv _ => false
  | .sbd _ => false
  | .coef => false
  | .sval => false
  | .svdu => false
  | .svdv => false

/-- `PIXIN[i].R`, bits 7:0 (10_state.md R54). -/
def pixR (p : Word64) : BitVec 8 := p.extractLsb' 0 8

/-- `PIXIN[i].G`, bits 15:8. -/
def pixG (p : Word64) : BitVec 8 := p.extractLsb' 8 8

/-- `PIXIN[i].B`, bits 23:16. -/
def pixB (p : Word64) : BitVec 8 := p.extractLsb' 16 8

/-- `PIXIN[i].A`, bits 39:24. -/
def pixA (p : Word64) : BitVec 16 := p.extractLsb' 24 16

/-- A PIXOUT element: R in bits 15:0, G in 31:16, B in 47:32, A in 63:48 (10_state.md R55). -/
def pixOut (r g b a : BitVec 16) : Word64 :=
  BitVec.ofNat 64 (r.toNat + g.toNat * 2 ^ 16 + b.toNat * 2 ^ 32 + a.toNat * 2 ^ 48)

end Sys2Proof.Machine
end

