-- ==== Sys2Proof/Machine/Ops.lean ====
section
/-! DEFINITION. The shared operations: element accesses, raising a command fault and an access error, a command's life
(acceptance and completion), and what a reset leaves. -/

namespace Sys2Proof.Machine

/-- What a buffer holds at an index; `d` is what an unlisted index holds. -/
def readElem (d : Elem) : Buffer → Nat → Elem
  | [], _ => d
  | (j, e) :: t, i => if i = j then e else readElem d t i

/-- Replaces what a buffer holds at an index, keeping the canonical form: indices strictly rising, no entry equal to `d`. -/
def putElem (d : Elem) : Buffer → Nat → Elem → Buffer
  | [], i, e => if e = d then [] else [(i, e)]
  | (j, f) :: t, i, e =>
    if i < j then (if e = d then (j, f) :: t else (i, e) :: (j, f) :: t)
    else if i = j then (if e = d then t else (i, e) :: t)
    else (j, f) :: putElem d t i e

/-- Element `idx k` becomes `el k`, for k in 0 .. n-1 in this order. -/
def scatterElems (d : Elem) (idx : Nat → Nat) (el : Nat → Elem) : Nat → Buffer → Buffer
  | 0, m => m
  | n + 1, m => putElem d (scatterElems d idx el n m) (idx n) (el n)

/-- Whether a buffer is in canonical form: indices strictly rising, no entry equal to what an unlisted index holds. -/
def bufferWf (d : Elem) (m : Buffer) : Bool :=
  decide (m.Pairwise fun a b => a.1 < b.1) && decide (∀ a ∈ m, a.2 ≠ d)

/-- The value of an element's contents; an unspecified one is a free value (93_implementation_defined.md U2, U8). -/
def elemValue (b : Buf) (i : Nat) : Elem → Word64
  | .known v => packElem b v
  | .free seed => packElem b (Config.freeElem seed (bufCode b) i)

/-- `BUF[i]`: reads element `i` of a buffer (00_scope.md R9), zero-extended to 64 bits. -/
def State.elem (s : State) (b : Buf) (i : Nat) : Word64 := elemValue b i (readElem s.unwritten (s.buf b) i)

/-- A binary32 or 32-bit element. -/
def State.elem32 (s : State) (b : Buf) (i : Nat) : Word32 := (s.elem b i).setWidth 32

/-- The contents `el k` go to element `idx k` of a buffer, for k in 0 .. n-1. -/
def State.scatter (s : State) (b : Buf) (n : Nat) (idx : Nat → Nat) (el : Nat → Elem) : State :=
  s.setBuf b (scatterElems s.unwritten idx el n (s.buf b))

/-- `BUF[idx k] <- val k` for k in 0 .. n-1 (00_scope.md R9). -/
def State.writeAt (s : State) (b : Buf) (n : Nat) (idx : Nat → Nat) (val : Nat → Word64) : State :=
  s.scatter b n idx fun k => .known (packElem b (val k))

/-- `BUF[base + k] <- val k` for k in 0 .. n-1. -/
def State.writeFrom (s : State) (b : Buf) (base n : Nat) (val : Nat → Word64) : State :=
  s.writeAt b n (fun k => base + k) val

/-- Binary32 values written to a run of elements. -/
def State.writeFrom32 (s : State) (b : Buf) (base n : Nat) (val : Nat → Word32) : State :=
  s.writeFrom b base n fun k => (val k).setWidth 64

/-- `acc <- f k acc` for k in 0 .. n-1 ascending. -/
def accumulate {α : Type} : Nat → (Nat → α → α) → α → α
  | 0, _, a => a
  | n + 1, f, a => f n (accumulate n f a)

/-- A run of elements of one buffer: `count` of them from index `base`. -/
structure Span where
  buf : Buf
  base : Nat
  count : Nat
deriving DecidableEq, Repr

/-- The write set of a command: the 'Writes' line of its rule (40_color.md R136, R137; 41_geometry_blockmap.md R157;
42_dwt.md R174, R177; 43_dct.md R193, R195, R196; 44_svd.md R212, R214). DCT writes PHI only when it rebuilds (43_dct.md
R194); SVD's line is taken as it stands on success (log 8). -/
def writeSet (s : State) : Instr → List Span
  | .rgb2yuv => [⟨.chan .y, 0, s.pixels⟩, ⟨.chan .u, 0, s.pixels⟩, ⟨.chan .v, 0, s.pixels⟩, ⟨.alpha, 0, s.pixels⟩]
  | .yuv2rgb => [⟨.pixout, 0, s.pixels⟩]
  | .mapgen => [⟨.bmap, 0, s.waves⟩]
  | .dwt ch _ => [⟨.sba ch, 0, s.waves⟩, ⟨.sbh ch, 0, s.waves⟩, ⟨.sbv ch, 0, s.waves⟩, ⟨.sbd ch, 0, s.waves⟩]
  | .idwt ch _ => [⟨.chan ch, 0, s.pixels⟩]
  | .dctinit => [⟨.phi, 0, s.area * s.area⟩]
  | .dct _ _ => ⟨.coef, 0, s.area⟩ :: (if s.phiOk then [] else [⟨.phi, 0, s.area * s.area⟩])
  | .idct => [⟨.sba s.dctCtx.ch, s.dctCtx.k.toNat * s.area, s.area⟩]
  | .svd => [⟨.sval, 0, s.rank⟩, ⟨.svdu, 0, s.bh * s.rank⟩, ⟨.svdv, 0, s.bw * s.rank⟩]
  | .isvd => [⟨.coef, 0, s.area⟩]

/-- Every element of the spans becomes unspecified, with the free values number `seed`. -/
def forgetSpans (seed : Nat) : List Span → State → State
  | [], s => s
  | p :: t, s => forgetSpans seed t (s.scatter p.buf p.count (fun k => p.base + k) fun _ => .free seed)

/-- `raise Fault(code)` for the word `w` (60_exceptions.md R252). -/
def raiseFault (code : CmdFault) (w : Word32) (s : State) : State :=
  { s with status := { s.status with fault := true }, faultInfo := { code := some code, cmdWord := w } }

/-- `flag ACCERR(code)`: sticky, the first error wins (60_exceptions.md R262). -/
def flagAccErr (code : AccError) (s : State) : State :=
  { s with
    accInfo := if s.status.accErr then s.accInfo else some code
    status := { s.status with accErr := true } }

/-- The code of the first failing check (60_exceptions.md R253). -/
def firstFault : List (Bool × CmdFault) → Option CmdFault
  | [] => none
  | (ok, f) :: t => if ok then firstFault t else some f

/-- The acceptance checks of a command, in order (30_encoding.md R117). -/
def acceptChecks (s : State) : Instr → List (Bool × CmdFault)
  | .rgb2yuv => [(s.imgOk, .badImg)]
  | .yuv2rgb => [(s.imgOk, .badImg)]
  | .mapgen => [(s.imgOk, .badImg)]
  | .dwt _ m => [(s.imgOk, .badImg), (!m || s.status.mapValid, .noMap)]
  | .idwt _ m => [(s.imgOk, .badImg), (!m || s.status.mapValid, .noMap)]
  | .dctinit => [(s.shapeOk, .badShape)]
  | .dct _ k => [(s.imgOk, .badImg), (s.shapeOk, .badShape), (decide (k < s.totBlk), .blkRange)]
  | .idct => [(s.status.dctValid, .noDct)]
  | .svd => [(s.shapeOk, .badShape)]
  | .isvd => [(s.status.svdValid, .noSvd)]

/-- `Accept(w)` for an illegal word (30_encoding.md R117). -/
def acceptIllegal (w : Word32) (s : State) : State :=
  raiseFault .illegalCmd w { s with status := acceptFlags s.status }

/-- `Accept(w)` for the word of command `i`: DONE is cleared, then either the first failing check's fault is raised or the
word is latched into CURCMD and BUSY set (30_encoding.md R117). -/
def acceptCommand (i : Instr) (s : State) : State :=
  let t := { s with status := acceptFlags s.status }
  match firstFault (acceptChecks s i) with
  | some f => raiseFault f (encode i) t
  | none => { t with curCmd := encode i, status := busyFlags t.status }

/-- The end of `Complete`: BUSY <- 0 and DONE <- 1 (30_encoding.md R118). CURCMD, which 10_state.md R64 defines only while
BUSY = 1, keeps the completed word: DESIGN CHOICE (log 24). -/
def finishCommand (s : State) : State := { s with status := completeFlags s.status }

/-- The two events of a command's life (30_encoding.md R117, R118; log 1): while the engine is idle it is being presented,
and is accepted or refused; while BUSY = 1 it is the command in flight, and completes: its whole effect, then BUSY and DONE,
one indivisible event. -/
def commandLife (i : Instr) (effect : State → State) (s : State) : Outcome :=
  if s.status.busy then .next (finishCommand (effect s)) else .next (acceptCommand i s)

/-- The registers as either reset leaves them (70_reset_and_hazards.md R290, R291). CURCMD is undefined there, with BUSY = 0:
DESIGN CHOICE 0 (log 11). -/
def resetRegisters (s : State) : State :=
  { s with
    ctrl := State.reset.ctrl
    status := State.reset.status
    faultInfo := State.reset.faultInfo
    accInfo := State.reset.accInfo
    imgDim := State.reset.imgDim
    blkReq := State.reset.blkReq
    dctCtx := State.reset.dctCtx
    phiShape := State.reset.phiShape
    bufSel := State.reset.bufSel
    bufIdx := State.reset.bufIdx
    curCmd := State.reset.curCmd }

/-- The write set of the command in flight (70_reset_and_hazards.md R292). -/
def inFlightWrites (s : State) : List Span :=
  match decode s.curCmd with
  | .ok i => writeSet s i
  | .error _ => []

/-- `SoftReset()` (70_reset_and_hazards.md R291, R292): the registers are reset; the buffers are kept, but for the write set of
a command in flight, which becomes unspecified. -/
def softReset (s : State) : State :=
  if s.status.busy then
    forgetSpans s.freeCount (inFlightWrites s) { resetRegisters s with freeCount := s.freeCount + 1 }
  else resetRegisters s

/-- `HardReset()` (70_reset_and_hazards.md R290): as `State.reset`, every buffer element unspecified anew. What is not the
engine's (the parameters, the host's side) stays. -/
def hardReset (s : State) : State :=
  { State.reset with
    cap := s.cap
    basis := s.basis
    unwrittenSeed := s.freeCount
    freeCount := s.freeCount + 1
    hostData := s.hostData
    events := s.events }

end Sys2Proof.Machine
end

