-- ==== Sys2Proof/Machine/BlockMap.lean ====
section
/-! DEFINITION. The block map: MAPGEN (41_geometry_blockmap.md R156, R157). -/

namespace Sys2Proof.Machine

/-- BMAP[k] as MAPGEN writes it, `k = y*WWAVE + x` (41_geometry_blockmap.md R157). -/
def mapEntry (s : State) (k : Nat) : Nat :=
  mapIdx s.wWave s.hWave s.bw s.bh (k % s.wWave) (k / s.wWave)

/-- The effect of MAPGEN (41_geometry_blockmap.md R157). -/
def effectMapgen (s : State) : State :=
  let t := s.writeFrom .bmap 0 s.waves fun k => BitVec.ofNat 64 (mapEntry s k)
  { t with status := mapFlags t.status }

/-- `MAPGEN` (41_geometry_blockmap.md R157). -/
def execMapgen (s : State) : Outcome := commandLife .mapgen effectMapgen s

end Sys2Proof.Machine
end

