-- ==== Sys2Proof/Machine/Float.lean ====
section
/-! DEFINITION. IEEE 754 binary32 and binary64 arithmetic (00_scope.md R10, R12 to R16; 92_eei_decisions.md D16), computed
exactly on integers and rounded once, to nearest, ties to even.

A finite value of a format is held as a sign and a natural number of UNITS, the unit being the format's smallest subnormal
(2^-149 for binary32, 2^-1074 for binary64), so that every finite value is an integer number of units. -/

namespace Sys2Proof.Machine

/-- An interchange format: the widths of fraction and exponent, and the unit 2^-unitExp (00_scope.md R13). -/
structure Format where
  fracBits : Nat
  expBits : Nat
  unitExp : Nat
deriving DecidableEq, Repr

/-- binary32: 23-bit fraction, 8-bit exponent. -/
def binary32 : Format := ⟨23, 8, 149⟩

/-- binary64: 52-bit fraction, 11-bit exponent. -/
def binary64 : Format := ⟨52, 11, 1074⟩

/-- A floating-point datum: a NaN, an infinity, or a signed number of units. -/
inductive Fp where
  | nan
  | inf (neg : Bool)
  | fin (neg : Bool) (units : Nat)
deriving DecidableEq, Repr

/-- The pattern of +infinity without sign: exponent all ones, fraction 0. -/
def infBits (F : Format) : Nat := (2 ^ F.expBits - 1) * 2 ^ F.fracBits

/-- The sign bit's weight. -/
def signWeight (F : Format) : Nat := 2 ^ (F.fracBits + F.expBits)

/-- The units of a finite magnitude pattern `e` exponent, `f` fraction. -/
def unitsOf (F : Format) (e f : Nat) : Nat :=
  if e = 0 then f else (2 ^ F.fracBits + f) * 2 ^ (e - 1)

/-- Reads a bit pattern (00_scope.md R13). -/
def unpackFp (F : Format) (bits : Nat) : Fp :=
  let neg := decide (bits / signWeight F % 2 = 1)
  let e := bits / 2 ^ F.fracBits % 2 ^ F.expBits
  let f := bits % 2 ^ F.fracBits
  if e = 2 ^ F.expBits - 1 then
    if f = 0 then .inf neg else .nan
  else .fin neg (unitsOf F e f)

/-- `num / den` to the nearest integer, ties to even. -/
def roundHalfEven (num den : Nat) : Nat :=
  let q := num / den
  let r := num % den
  if den < 2 * r ∨ (2 * r = den ∧ q % 2 = 1) then q + 1 else q

/-- The magnitude pattern of `num / den` units rounded to the format, to nearest, ties to even; above the range it is the
pattern of infinity (00_scope.md R10, R14). With `q` the integer part, the last place of the result is 2^k units. -/
def roundUnits (F : Format) (num den : Nat) : Nat :=
  let k := (num / den).log2 - F.fracBits
  min (infBits F) (k * 2 ^ F.fracBits + roundHalfEven num (den * 2 ^ k))

/-- A magnitude pattern with its sign. -/
def packSign (F : Format) (neg : Bool) (magnitude : Nat) : Nat :=
  if neg then signWeight F + magnitude else magnitude

/-- The rounded pattern of a signed `num / den` units. -/
def packRound (F : Format) (neg : Bool) (num den : Nat) : Nat :=
  packSign F neg (roundUnits F num den)

/-- The opposite sign (a NaN stays a NaN). -/
def negFp : Fp → Fp
  | .nan => .nan
  | .inf s => .inf (!s)
  | .fin s m => .fin (!s) m

/-- The sum's bit pattern; `none` is a NaN: a NaN operand, or infinities of opposite signs (00_scope.md R14, R15). An exact
zero sum of opposite signs is +0. -/
def addFp (F : Format) (a b : Fp) : Option Nat :=
  match a, b with
  | .nan, _ => none
  | _, .nan => none
  | .inf s, .inf t => if s = t then some (packSign F s (infBits F)) else none
  | .inf s, .fin _ _ => some (packSign F s (infBits F))
  | .fin _ _, .inf t => some (packSign F t (infBits F))
  | .fin s m, .fin t n =>
    if s = t then some (packRound F s (m + n) 1)
    else if m = n then some 0
    else if n < m then some (packRound F s (m - n) 1)
    else some (packRound F t (n - m) 1)

/-- The product's bit pattern; `none` is a NaN: a NaN operand, or 0 * inf. -/
def mulFp (F : Format) (a b : Fp) : Option Nat :=
  match a, b with
  | .nan, _ => none
  | _, .nan => none
  | .inf s, .inf t => some (packSign F (s != t) (infBits F))
  | .inf s, .fin t n => if n = 0 then none else some (packSign F (s != t) (infBits F))
  | .fin s m, .inf t => if m = 0 then none else some (packSign F (s != t) (infBits F))
  | .fin s m, .fin t n => some (packRound F (s != t) (m * n) (2 ^ F.unitExp))

/-- The quotient's bit pattern; `none` is a NaN. The engine divides by non-zero constants only (00_scope.md R16); the other
cases are the IEEE 754 default results (R15). -/
def divFp (F : Format) (a b : Fp) : Option Nat :=
  match a, b with
  | .nan, _ => none
  | _, .nan => none
  | .inf _, .inf _ => none
  | .inf s, .fin t _ => some (packSign F (s != t) (infBits F))
  | .fin s _, .inf t => some (packSign F (s != t) 0)
  | .fin s m, .fin t n =>
    if n = 0 then
      if m = 0 then none else some (packSign F (s != t) (infBits F))
    else some (packRound F (s != t) (m * 2 ^ F.unitExp) n)

/-- A quiet binary32 NaN whose sign and payload are `free`'s (00_scope.md R15). -/
def quietNan32 (free : Word32) : Word32 := (free &&& 0x803FFFFF) ||| 0x7FC00000

/-- A quiet binary64 NaN whose sign and payload are `free`'s. -/
def quietNan64 (free : Word64) : Word64 := (free &&& 0x8007FFFFFFFFFFFF) ||| 0x7FF8000000000000

/-- The datum of a binary32 pattern. -/
def fp32 (v : Word32) : Fp := unpackFp binary32 v.toNat

/-- The datum of a binary64 pattern. -/
def fp64 (v : Word64) : Fp := unpackFp binary64 v.toNat

/-- A binary32 result: the pattern, or a quiet NaN with free sign and payload. -/
def result32 (op : FpOp) (a b : Word64) : Option Nat → Word32
  | some bits => BitVec.ofNat 32 bits
  | none => quietNan32 (Config.freeNan32 op a b)

/-- A binary64 result, in the same form. -/
def result64 (op : FpOp) (a b : Word64) : Option Nat → Word64
  | some bits => BitVec.ofNat 64 bits
  | none => quietNan64 (Config.freeNan64 op a b)

/-- `a +32 b` (00_scope.md R10). -/
def add32 (a b : Word32) : Word32 :=
  result32 .add (a.setWidth 64) (b.setWidth 64) (addFp binary32 (fp32 a) (fp32 b))

/-- `a -32 b`. -/
def sub32 (a b : Word32) : Word32 :=
  result32 .sub (a.setWidth 64) (b.setWidth 64) (addFp binary32 (fp32 a) (negFp (fp32 b)))

/-- `a *32 b`. -/
def mul32 (a b : Word32) : Word32 :=
  result32 .mul (a.setWidth 64) (b.setWidth 64) (mulFp binary32 (fp32 a) (fp32 b))

/-- `a /32 b`. -/
def div32 (a b : Word32) : Word32 :=
  result32 .div (a.setWidth 64) (b.setWidth 64) (divFp binary32 (fp32 a) (fp32 b))

/-- `a +64 b` (00_scope.md R10). -/
def add64 (a b : Word64) : Word64 := result64 .add a b (addFp binary64 (fp64 a) (fp64 b))

/-- `a *64 b`. -/
def mul64 (a b : Word64) : Word64 := result64 .mul a b (mulFp binary64 (fp64 a) (fp64 b))

/-- `f64(v)`: the exact widening of a binary32 value (00_scope.md R10). A NaN stays a NaN (R15). -/
def f64OfF32 (v : Word32) : Word64 :=
  match fp32 v with
  | .nan => quietNan64 (Config.freeNan64 .widen (v.setWidth 64) 0)
  | .inf s => BitVec.ofNat 64 (packSign binary64 s (infBits binary64))
  | .fin s m => BitVec.ofNat 64 (packRound binary64 s (m * 2 ^ (binary64.unitExp - binary32.unitExp)) 1)

/-- `RN32(v)` of a binary64 value (43_dct.md R196): nearest even, overflow to infinity, a NaN stays a NaN. -/
def f32OfF64 (v : Word64) : Word32 :=
  match fp64 v with
  | .nan => quietNan32 (Config.freeNan32 .narrow v 0)
  | .inf s => BitVec.ofNat 32 (packSign binary32 s (infBits binary32))
  | .fin s m => BitVec.ofNat 32 (packRound binary32 s m (2 ^ (binary64.unitExp - binary32.unitExp)))

/-- `u8_to_f32(n)`: the exact conversion of an integer 0 to 255 (00_scope.md R10, R12). -/
def f32OfU8 (n : BitVec 8) : Word32 :=
  BitVec.ofNat 32 (packRound binary32 false (n.toNat * 2 ^ binary32.unitExp) 1)

/-- The IEEE 754 ordered comparison `a < b`: false where an operand is a NaN, and -0 < +0 is false (00_scope.md R12). -/
def ltFp (a b : Fp) : Bool :=
  match a, b with
  | .nan, _ => false
  | _, .nan => false
  | .inf s, .inf t => s && !t
  | .inf s, .fin _ _ => s
  | .fin _ _, .inf t => !t
  | .fin s m, .fin t n =>
    match s, t with
    | false, false => decide (m < n)
    | true, true => decide (n < m)
    | true, false => decide (m ≠ 0 ∨ n ≠ 0)
    | false, true => false

/-- The integer part, toward zero, of a non-negative finite binary32 value; 0 for the others, which no use reaches
(40_color.md R135: the product is in [0, 65535]). -/
def truncNat32 (v : Word32) : Nat :=
  match fp32 v with
  | .fin false m => m / 2 ^ binary32.unitExp
  | _ => 0

/-- The exact rational value of a finite binary64 pattern; 0 for a NaN or an infinity, which the properties that use it
exclude (44_svd.md R211). -/
def ratOfF64 (v : Word64) : ℚ :=
  match fp64 v with
  | .fin false m => (m : ℚ) / 2 ^ binary64.unitExp
  | .fin true m => -((m : ℚ) / 2 ^ binary64.unitExp)
  | _ => 0

/-- Whether a binary64 pattern is a finite value. -/
def finite64 (v : Word64) : Bool :=
  match fp64 v with
  | .fin _ _ => true
  | _ => false

end Sys2Proof.Machine
end

