-- ==== Sys2Proof/Machine/Color.lean ====
section
/-! DEFINITION. The colour converter: RGB2YUV and YUV2RGB (40_color.md R133 to R137). -/

namespace Sys2Proof.Machine

/-- 0.299 (40_color.md R133). -/
def k299 : Word32 := 0x3E991687

/-- 0.587. -/
def k587 : Word32 := 0x3F1645A2

/-- 0.114. -/
def k114 : Word32 := 0x3DE978D5

/-- 0.492. -/
def k492 : Word32 := 0x3EFBE76D

/-- 0.877. -/
def k877 : Word32 := 0x3F608312

/-- 1.140. -/
def k1140 : Word32 := 0x3F91EB85

/-- 0.395. -/
def k395 : Word32 := 0x3ECA3D71

/-- 0.581. -/
def k581 : Word32 := 0x3F14BC6A

/-- 2.032. -/
def k2032 : Word32 := 0x40020C4A

/-- 0.5. -/
def half32 : Word32 := 0x3F000000

/-- 257. -/
def c257 : Word32 := 0x43808000

/-- 255, the upper limit of `Clip16`'s comparison (40_color.md R135). -/
def c255 : Word32 := 0x437F0000

/-- A pixel's channel samples. -/
structure Yuv where
  y : Word32
  u : Word32
  v : Word32
deriving DecidableEq, Repr

/-- A pixel's 16-bit colour components. -/
structure Rgb16 where
  r : BitVec 16
  g : BitVec 16
  b : BitVec 16
deriving DecidableEq, Repr

/-- `Fwd(r, g, b)` (40_color.md R134). -/
def fwdColor (r g b : BitVec 8) : Yuv :=
  let rf := f32OfU8 r
  let gf := f32OfU8 g
  let bf := f32OfU8 b
  let y := add32 (add32 (mul32 k299 rf) (mul32 k587 gf)) (mul32 k114 bf)
  { y := y
    u := add32 (mul32 k492 (sub32 bf y)) half32
    v := add32 (mul32 k877 (sub32 rf y)) half32 }

/-- `Clip16(v)` (40_color.md R135). -/
def clip16 (v : Word32) : BitVec 16 :=
  if fp32 v = .nan then Config.freeClip v
  else if ltFp (fp32 v) (fp32 0) then 0
  else if ltFp (fp32 c255) (fp32 v) then 65535
  else BitVec.ofNat 16 (truncNat32 (mul32 v c257))

/-- `Inv(Y, U, V)` (40_color.md R135). -/
def invColor (p : Yuv) : Rgb16 :=
  let tu := sub32 p.u half32
  let tv := sub32 p.v half32
  { r := clip16 (add32 p.y (mul32 k1140 tv))
    g := clip16 (sub32 (sub32 p.y (mul32 k395 tu)) (mul32 k581 tv))
    b := clip16 (add32 p.y (mul32 k2032 tu)) }

/-- `Fwd` of the colour components of PIXIN[i]. -/
def fwdPixel (s : State) (i : Nat) : Yuv :=
  let p := s.elem .pixin i
  fwdColor (pixR p) (pixG p) (pixB p)

/-- `Inv` of the samples of pixel `i`. -/
def invPixel (s : State) (i : Nat) : Rgb16 :=
  invColor { y := s.elem32 (.chan .y) i, u := s.elem32 (.chan .u) i, v := s.elem32 (.chan .v) i }

/-- PIXOUT[i] as YUV2RGB writes it: the clipped components, alpha copied (40_color.md R137). -/
def outPixel (s : State) (i : Nat) : Word64 :=
  let c := invPixel s i
  pixOut c.r c.g c.b ((s.elem .alpha i).setWidth 16)

/-- The effect of RGB2YUV (40_color.md R136). -/
def effectRgb2yuv (s : State) : State :=
  let n := s.pixels
  let t := s.writeFrom32 (.chan .y) 0 n fun i => (fwdPixel s i).y
  let t := t.writeFrom32 (.chan .u) 0 n fun i => (fwdPixel s i).u
  let t := t.writeFrom32 (.chan .v) 0 n fun i => (fwdPixel s i).v
  t.writeFrom .alpha 0 n fun i => (pixA (s.elem .pixin i)).setWidth 64

/-- The effect of YUV2RGB (40_color.md R137). -/
def effectYuv2rgb (s : State) : State := s.writeFrom .pixout 0 s.pixels (outPixel s)

/-- `RGB2YUV` (40_color.md R136). -/
def execRgb2yuv (s : State) : Outcome := commandLife .rgb2yuv effectRgb2yuv s

/-- `YUV2RGB` (40_color.md R137). -/
def execYuv2rgb (s : State) : Outcome := commandLife .yuv2rgb effectYuv2rgb s

end Sys2Proof.Machine
end

