-- ==== Sys2Proof/Machine/Basis.lean ====
section
/-! DEFINITION. The parameter `BASIS1D` (00_scope.md R6, 43_dct.md R190): the 1-D DCT basis values of the basis generator. A
real value is approximated by a natural number of 2^-192, with an error below 2^8 of them (log 5). -/

namespace Sys2Proof.Machine

/-- 1.0 in units of 2^-192. -/
def basisOne : Nat := 2 ^ 192

/-- The integer part of pi in units of 2^-192. -/
def basisPi : Nat := 0x3243F6A8885A308D313198A2E03707344A4093822299F31D0

/-- Newton's steps from above to the integer square root of `n`. -/
def sqrtFrom (n : Nat) : Nat → Nat → Nat
  | 0, x => x
  | fuel + 1, x =>
    let y := (x + n / x) / 2
    if y < x then sqrtFrom n fuel y else x

/-- The square root of num / den, at most 2, in units of 2^-192. -/
def basisSqrt (num den : Nat) : Nat := sqrtFrom (num * basisOne ^ 2 / den) 256 (2 * basisOne)

/-- The tail of the cosine's series from its term 2k on, over that term, `n` terms deep; `t` is the square of the angle:
1 - t/((2k+1)(2k+2)) * (1 - t/((2k+3)(2k+4)) * ...). -/
def cosTail (t : Nat) : Nat → Nat → Nat
  | 0, _ => basisOne
  | n + 1, k => basisOne - t * cosTail t n (k + 1) / (basisOne * ((2 * k + 1) * (2 * k + 2)))

/-- The cosine of j*pi/(2d), 0 <= j <= d. -/
def basisCos (d j : Nat) : Nat :=
  let angle := j * basisPi / (2 * d)
  cosTail (angle * angle / basisOne) 28 0

/-- phi_d[i, k] of 43_dct.md R190: its sign, and its magnitude in units of 2^-192. For i >= 1 the cosine's argument
i*(2k+1)*pi/(2d) is folded into the first quadrant, to j*pi/(2d) with 0 <= j <= d; at j = d the value is 0. -/
def basisFixed (d i k : Nat) : Bool × Nat :=
  if i = 0 then (false, basisSqrt 1 d)
  else
    let turn := i * (2 * k + 1) % (4 * d)
    let half := if 2 * d < turn then 4 * d - turn else turn
    let neg := decide (d < half)
    let j := if neg then 2 * d - half else half
    if j = d then (false, 0) else (neg, basisSqrt 2 d * basisCos d j / basisOne)

/-- A number of 2^-192 in units of binary64, 2^-1074. -/
def basisUnits (m : Nat) : Nat := m * 2 ^ 882

/-- The default of `BASIS1D(d, i, k)`: the real value rounded to binary64, +0 where it is 0 (43_dct.md R190). DEDUCED (log 5). -/
def basisDefault (d i k : Nat) : Word64 :=
  let v := basisFixed d i k
  BitVec.ofNat 64 (packRound binary64 v.1 (basisUnits v.2) 1)

/-- Whether a binary64 value may stand for phi_d[i, k]: it differs from the real value by at most 2^-52 (00_scope.md R6). The
approximation's own error, 2^-184, is allowed for on the side of accepting (log 5). -/
def basisAdmits (d i k : Nat) (v : Word64) : Bool :=
  let x := basisFixed d i k
  let u := basisUnits x.2
  match fp64 v with
  | .fin neg m =>
    let apart := if neg = x.1 then (m - u) + (u - m) else m + u
    decide (apart ≤ 2 ^ 1022 + 2 ^ 890)
  | _ => false

/-- `BASIS1D(d, i, k)` of the engine's basis generator: the default, or another instance, which is a free function of (d, i, k)
where its value is admissible and the default elsewhere. Every admissible instance is of this form. -/
def basis1d (rom : BasisRom) (d i k : Nat) : Word64 :=
  match rom with
  | .correctlyRounded => basisDefault d i k
  | .other n =>
    let v := Config.freeBasis n d i k
    if basisAdmits d i k v then v else basisDefault d i k

end Sys2Proof.Machine
end

