-- ==== Sys2Proof/Machine/Dct.lean ====
section
/-! DEFINITION. The 2-D DCT with its basis tensor: DCTINIT, DCT and IDCT (43_dct.md R190 to R196). -/

namespace Sys2Proof.Machine

/-- φ[i,j,x,y] for the shape (bw, bh): one binary64 product of two basis values (43_dct.md R192). -/
def tensorValue (rom : BasisRom) (bw bh i j x y : Nat) : Word64 := mul64 (basis1d rom bh i x) (basis1d rom bw j y)

/-- PHI[n] as `BuildPhi(bw, bh)` writes it, `n` = `tensorIndex bw bh i j x y` (43_dct.md R192). -/
def tensorEntry (rom : BasisRom) (bw bh n : Nat) : Word64 :=
  let y := n % bw
  let x := n / bw % bh
  let j := n / (bw * bh) % bw
  let i := n / (bw * bh) / bw
  tensorValue rom bw bh i j x y

/-- `BuildPhi(bw, bh)` for the current block shape (43_dct.md R192). -/
def buildPhi (s : State) : State :=
  let t := s.writeFrom .phi 0 (s.area * s.area) (tensorEntry s.basis s.bw s.bh)
  { t with phiShape := { w := BitVec.ofNat 16 s.bw, h := BitVec.ofNat 16 s.bh }, status := phiFlags t.status }

/-- The rebuild on demand (43_dct.md R194). -/
def ensurePhi (s : State) : State := if s.phiOk then s else buildPhi s

/-- φ[i,j,x,y] as PHI holds it (10_state.md R62). -/
def phiAt (s : State) (i j x y : Nat) : Word64 := s.elem .phi (tensorIndex s.bw s.bh i j x y)

/-- `f64(data[n])` of block `k` of a channel: `data[n]` is SBA[ch][k*A + n] (43_dct.md R195). -/
def blockSample (s : State) (ch : Channel) (k n : Nat) : Word64 := f64OfF32 (s.elem32 (.sba ch) (k * s.area + n))

/-- Coefficient (i, j) of the forward transform: the sum over x (outer) and y (inner), from +0 (43_dct.md R195). -/
def dctCoef (s : State) (ch : Channel) (k i j : Nat) : Word64 :=
  accumulate s.bh (fun x acc =>
    accumulate s.bw (fun y acc => add64 acc (mul64 (phiAt s i j x y) (blockSample s ch k (x * s.bw + y)))) acc) 0

/-- Sample (x, y) of the inverse transform: the sum over i (outer) and j (inner), from +0 (43_dct.md R196). -/
def idctSample (s : State) (x y : Nat) : Word64 :=
  accumulate s.bh (fun i acc =>
    accumulate s.bw (fun j acc => add64 acc (mul64 (phiAt s i j x y) (s.elem .coef (i * s.bw + j)))) acc) 0

/-- The effect of DCTINIT (43_dct.md R193). -/
def effectDctinit (s : State) : State := buildPhi s

/-- The effect of `DCT ch, k` (43_dct.md R195). -/
def effectDct (ch : Channel) (k : Nat) (s : State) : State :=
  let p := ensurePhi s
  let t := p.writeFrom .coef 0 p.area fun n => dctCoef p ch k (n / p.bw) (n % p.bw)
  { t with dctCtx := { ch := ch, k := BitVec.ofNat 24 k }, status := dctFlags t.status }

/-- The effect of IDCT (43_dct.md R196). -/
def effectIdct (s : State) : State :=
  s.writeFrom32 (.sba s.dctCtx.ch) (s.dctCtx.k.toNat * s.area) s.area fun n =>
    f32OfF64 (idctSample s (n / s.bw) (n % s.bw))

/-- `DCTINIT` (43_dct.md R193). -/
def execDctinit (s : State) : Outcome := commandLife .dctinit effectDctinit s

/-- `DCT ch, k` (43_dct.md R195). -/
def execDct (ch : Channel) (k : Nat) (s : State) : Outcome := commandLife (.dct ch k) (effectDct ch k) s

/-- `IDCT` (43_dct.md R196). -/
def execIdct (s : State) : Outcome := commandLife .idct effectIdct s

end Sys2Proof.Machine
end

