-- ==== Sys2Proof/Machine/Svd.lean ====
section
/-! DEFINITION. The small real SVD: SVD and ISVD (44_svd.md R210 to R214). The solver is a parameter, known by its properties
P1 to P6 only. -/

namespace Sys2Proof.Machine

/-- `ok k` for every k < n. -/
def allBelow (n : Nat) (ok : Nat → Bool) : Bool := (List.range n).all ok

/-- Element `i` of a list of binary64 values, exactly. -/
def ratAt (l : List Word64) (i : Nat) : ℚ := ratOfF64 (l.getD i 0)

/-- The exact sum of `f k` for k < n. -/
def ratSum (n : Nat) (f : Nat → ℚ) : ℚ := accumulate n (fun k acc => acc + f k) 0

/-- The tolerance 1e-10 of P3 and P4 (44_svd.md R211). -/
def svdTolerance : ℚ := 1 / 10 ^ 10

/-- |a - b| is within the tolerance. -/
def closeTo (a b : ℚ) : Bool := decide (a - b ≤ svdTolerance) && decide (b - a ≤ svdTolerance)

/-- P1 (44_svd.md R211): every S[t] is finite and S[t] >= 0. -/
def svdNonneg (r : Nat) (t : SvdTriple) : Bool :=
  allBelow r fun i => finite64 (t.s.getD i 0) && decide (0 ≤ ratAt t.s i)

/-- P2: S[0] >= S[1] >= ... >= S[r-1]. -/
def svdSorted (r : Nat) (t : SvdTriple) : Bool := allBelow (r - 1) fun i => decide (ratAt t.s (i + 1) ≤ ratAt t.s i)

/-- P3: U S Vᵀ is within 1e-10 of M, required when every |M[a][b]| <= 16384. -/
def svdRecon (bh bw r : Nat) (m : List Word64) (t : SvdTriple) : Bool :=
  let small := allBelow (bh * bw) fun n => decide (ratAt m n ≤ 16384) && decide (-16384 ≤ ratAt m n)
  !small || allBelow bh fun a => allBelow bw fun b =>
    closeTo (ratSum r fun i => ratAt t.u (a * r + i) * ratAt t.s i * ratAt t.v (b * r + i)) (ratAt m (a * bw + b))

/-- The r columns of a rows×r matrix are orthonormal, each inner product within 1e-10 of 1 or 0. -/
def columnsOrtho (rows r : Nat) (l : List Word64) : Bool :=
  allBelow (rows * r) (fun n => finite64 (l.getD n 0)) && allBelow r fun p => allBelow r fun q =>
    closeTo (ratSum rows fun a => ratAt l (a * r + p) * ratAt l (a * r + q)) (if p = q then 1 else 0)

/-- P4: the columns of U are orthonormal and so are those of V. -/
def svdOrtho (bh bw r : Nat) (t : SvdTriple) : Bool := columnsOrtho bh r t.u && columnsOrtho bw r t.v

/-- U is bh×r, S has r values, V is bw×r (44_svd.md R211). -/
def svdShaped (bh bw r : Nat) (t : SvdTriple) : Bool :=
  decide (t.u.length = bh * r) && decide (t.s.length = r) && decide (t.v.length = bw * r)

/-- What a solver's answer may be: of the right shape, and with P1 to P4 unless M holds a NaN or an infinity (P6). -/
def svdAdmissible (bh bw : Nat) (m : List Word64) (t : SvdTriple) : Bool :=
  let r := min bw bh
  svdShaped bh bw r t &&
    (!allBelow (bh * bw) (fun n => finite64 (m.getD n 0)) ||
      (svdNonneg r t && svdSorted r t && svdRecon bh bw r m t && svdOrtho bh bw r t))

/-- The parameter `SVD_SOLVER(bh, bw, M)` (44_svd.md R211, log 6): a free function of its arguments (P5), its answer kept
where it is admissible, `fail` elsewhere. Every solver with P1 to P6 is of this form. -/
def svdSolver (bh bw : Nat) (m : List Word64) : Option SvdTriple :=
  match Config.freeSolver bh bw m with
  | none => none
  | some t => if svdAdmissible bh bw m t then some t else none

/-- The matrix M in COEF, row-major bh×bw (44_svd.md). -/
def coefMatrix (s : State) : List Word64 := (List.range s.area).map (s.elem .coef)

/-- The effect of SVD, given the solver's answer (44_svd.md R212, R213). -/
def storeSvd (answer : Option SvdTriple) (s : State) : State :=
  match answer with
  | some f =>
    let t := s.writeFrom .sval 0 s.rank fun i => f.s.getD i 0
    let t := t.writeFrom .svdu 0 (s.bh * s.rank) fun i => f.u.getD i 0
    let t := t.writeFrom .svdv 0 (s.bw * s.rank) fun i => f.v.getD i 0
    { t with status := svdDoneFlags t.status }
  | none => { s with status := svdFailFlags s.status }

/-- The effect of SVD (44_svd.md R212). -/
def effectSvd (s : State) : State := storeSvd (svdSolver s.bh s.bw (coefMatrix s)) s

/-- Element (a, b) of U S Vᵀ: the sum over t ascending, from +0 (44_svd.md R214). -/
def isvdEntry (s : State) (a b : Nat) : Word64 :=
  accumulate s.rank (fun t acc =>
    add64 acc (mul64 (mul64 (s.elem .svdu (a * s.rank + t)) (s.elem .sval t)) (s.elem .svdv (b * s.rank + t)))) 0

/-- The effect of ISVD (44_svd.md R214). -/
def effectIsvd (s : State) : State :=
  s.writeFrom .coef 0 s.area fun n => isvdEntry s (n / s.bw) (n % s.bw)

/-- `SVD` (44_svd.md R212). -/
def execSvd (s : State) : Outcome := commandLife .svd effectSvd s

/-- `ISVD` (44_svd.md R214). -/
def execIsvd (s : State) : Outcome := commandLife .isvd effectIsvd s

end Sys2Proof.Machine
end

