-- ==== Sys2Proof/Machine/Wavelet.lean ====
section
/-! DEFINITION. The Haar wavelet transform: DWT and IDWT (42_dwt.md R170 to R177). -/

namespace Sys2Proof.Machine

/-- The binary32 value nearest to the square root of 2 (42_dwt.md R171). -/
def sq2f : Word32 := 0x3FB504F3

/-- 2.0. -/
def two32 : Word32 := 0x40000000

/-- A pair of kernel values. -/
structure Pair where
  a : Word32
  d : Word32
deriving DecidableEq, Repr

/-- `cacd32(u, v)` (42_dwt.md R171). -/
def cacd32 (u v : Word32) : Pair :=
  let m := div32 (add32 u v) two32
  { a := mul32 m sq2f, d := mul32 (sub32 u m) sq2f }

/-- `icacd32(a, d)` (42_dwt.md R172). -/
def icacd32 (a d : Word32) : Pair :=
  let p := div32 a sq2f
  let q := div32 d sq2f
  { a := add32 p q, d := sub32 p q }

/-- The four subband coefficients of one kernel position. -/
structure Coeffs where
  cA : Word32
  cH : Word32
  cV : Word32
  cD : Word32
deriving DecidableEq, Repr

/-- The forward kernel on the samples s[y0,x0], s[y1,x0], s[y0,x1], s[y1,x1] (42_dwt.md R174). -/
def haarForward (s00 s10 s01 s11 : Word32) : Coeffs :=
  let p1 := cacd32 s00 s10
  let p2 := cacd32 s01 s11
  let av := cacd32 p1.a p2.a
  let hd := cacd32 p1.d p2.d
  { cA := av.a, cV := av.d, cH := hd.a, cD := hd.d }

/-- The four samples the inverse kernel computes, in the order of `haarForward`'s arguments. -/
structure Quad where
  p00 : Word32
  p10 : Word32
  p01 : Word32
  p11 : Word32
deriving DecidableEq, Repr

/-- The inverse kernel (42_dwt.md R175, R177). -/
def haarInverse (c : Coeffs) : Quad :=
  let av := icacd32 c.cA c.cV
  let hd := icacd32 c.cH c.cD
  let left := icacd32 av.a hd.a
  let right := icacd32 av.d hd.d
  { p00 := left.a, p10 := left.d, p01 := right.a, p11 := right.d }

/-- `s[y, x]`: the sample at column x, row y of a channel (42_dwt.md). -/
def sample (s : State) (ch : Channel) (x y : Nat) : Word32 := s.elem32 (.chan ch) (pixelIndex s.width x y)

/-- The coefficients of the kernel at wavelet index `k`: top-left corner x0 = 2*(k mod WWAVE), y0 = 2*(k div WWAVE), with
edge replication (42_dwt.md R170, R173, R174). -/
def forwardAt (s : State) (ch : Channel) (k : Nat) : Coeffs :=
  let x0 := 2 * (k % s.wWave)
  let y0 := 2 * (k / s.wWave)
  let x1 := min (x0 + 1) (s.width - 1)
  let y1 := min (y0 + 1) (s.height - 1)
  haarForward (sample s ch x0 y0) (sample s ch x0 y1) (sample s ch x1 y0) (sample s ch x1 y1)

/-- The storage index `j` of wavelet index `k`: through the block map when M = 1 (42_dwt.md R173). -/
def storageIndex (s : State) (m : Bool) (k : Nat) : Nat := if m then (s.elem .bmap k).toNat else k

/-- The effect of `DWT ch, m` (42_dwt.md R174): the kernels in wavelet index order. -/
def effectDwt (ch : Channel) (m : Bool) (s : State) : State :=
  let n := s.waves
  let j := storageIndex s m
  let t := s.writeAt (.sba ch) n j fun k => (forwardAt s ch k).cA.setWidth 64
  let t := t.writeAt (.sbh ch) n j fun k => (forwardAt s ch k).cH.setWidth 64
  let t := t.writeAt (.sbv ch) n j fun k => (forwardAt s ch k).cV.setWidth 64
  t.writeAt (.sbd ch) n j fun k => (forwardAt s ch k).cD.setWidth 64

/-- The coefficients of a channel at a storage index. -/
def coeffsAt (s : State) (ch : Channel) (j : Nat) : Coeffs :=
  { cA := s.elem32 (.sba ch) j, cH := s.elem32 (.sbh ch) j, cV := s.elem32 (.sbv ch) j, cD := s.elem32 (.sbd ch) j }

/-- The sample IDWT writes at column x, row y: one of the four of the kernel at (2*(x div 2), 2*(y div 2)). A value whose
pixel lies outside the image is written nowhere (42_dwt.md R175, R177). -/
def inverseAt (s : State) (ch : Channel) (m : Bool) (x y : Nat) : Word32 :=
  let k := y / 2 * s.wWave + x / 2
  let q := haarInverse (coeffsAt s ch (storageIndex s m k))
  if y % 2 = 0 then
    if x % 2 = 0 then q.p00 else q.p01
  else
    if x % 2 = 0 then q.p10 else q.p11

/-- The effect of `IDWT ch, m` (42_dwt.md R177): every sample of the channel, each exactly once. -/
def effectIdwt (ch : Channel) (m : Bool) (s : State) : State :=
  s.writeFrom32 (.chan ch) 0 s.pixels fun i => inverseAt s ch m (i % s.width) (i / s.width)

/-- `DWT ch, m` (42_dwt.md R174). -/
def execDwt (ch : Channel) (m : Bool) (s : State) : Outcome := commandLife (.dwt ch m) (effectDwt ch m) s

/-- `IDWT ch, m` (42_dwt.md R177). -/
def execIdwt (ch : Channel) (m : Bool) (s : State) : Outcome := commandLife (.idwt ch m) (effectIdwt ch m) s

end Sys2Proof.Machine
end

