-- ==== Sys2Proof/Machine/Dispatch.lean ====
section
/-! DEFINITION. What each command does in its present event: acceptance while idle, completion while BUSY (log 1). -/

namespace Sys2Proof.Machine

def exec (i : Instr) (s : State) : Host.Outcome State Fault Refusal :=
  match i with
  | .rgb2yuv => Sys2Proof.Machine.execRgb2yuv s
  | .yuv2rgb => Sys2Proof.Machine.execYuv2rgb s
  | .mapgen => Sys2Proof.Machine.execMapgen s
  | .dwt ch m => Sys2Proof.Machine.execDwt ch m s
  | .idwt ch m => Sys2Proof.Machine.execIdwt ch m s
  | .dctinit => Sys2Proof.Machine.execDctinit s
  | .dct ch k => Sys2Proof.Machine.execDct ch k s
  | .idct => Sys2Proof.Machine.execIdct s
  | .svd => Sys2Proof.Machine.execSvd s
  | .isvd => Sys2Proof.Machine.execIsvd s

end Sys2Proof.Machine
end

