-- ==== Sys2Proof/Machine/HostPort.lean ====
section
/-! DEFINITION. The host's transactions (20_memory.md R80 to R91), presenting a command (30_encoding.md R116), and the engine's
completion step (R118). -/

namespace Sys2Proof.Machine

/-- The seventeen registers of the window (10_state.md R35 to R51), in the order of their offsets. -/
inductive Reg where
  | id
  | cap
  | ctrl
  | status
  | faultInfo
  | cmd
  | imgDim
  | blkReq
  | blkShape
  | waveDim
  | totBlk
  | dctCtx
  | phiShape
  | bufSel
  | bufIdx
  | bufData
  | accInfo
deriving DecidableEq, Repr

/-- The register at a byte offset: offsets 0x00 to 0x80 in steps of 8; none elsewhere (20_memory.md R80). -/
def regAt (off : BitVec 8) : Option Reg :=
  match off.toNat with
  | 0x00 => some .id
  | 0x08 => some .cap
  | 0x10 => some .ctrl
  | 0x18 => some .status
  | 0x20 => some .faultInfo
  | 0x28 => some .cmd
  | 0x30 => some .imgDim
  | 0x38 => some .blkReq
  | 0x40 => some .blkShape
  | 0x48 => some .waveDim
  | 0x50 => some .totBlk
  | 0x58 => some .dctCtx
  | 0x60 => some .phiShape
  | 0x68 => some .bufSel
  | 0x70 => some .bufIdx
  | 0x78 => some .bufData
  | 0x80 => some .accInfo
  | _ => none

/-- The register a host access reaches: the access is 64 bits wide, at a multiple of 8 where a register is (20_memory.md R85,
10_state.md R52). -/
def hostTarget (off : BitVec 8) (bits : Nat) : Option Reg := if bits = 64 then regAt off else none

/-- The codes of 60_exceptions.md R251. -/
def faultCode : CmdFault → Nat
  | .illegalCmd => 1
  | .badImg => 2
  | .badShape => 3
  | .noMap => 4
  | .blkRange => 5
  | .noDct => 6
  | .noSvd => 7

/-- The codes of 60_exceptions.md R261. -/
def accCode : AccError → Nat
  | .busy => 1
  | .indexRange => 2
  | .badSelect => 3
  | .readOnly => 4
  | .badAccess => 5
  | .faultPending => 6

/-- Two 16-bit dimensions in bits 15:0 and 31:16. -/
def packDims (w h : Nat) : Word64 := BitVec.ofNat 64 (w + h * 2 ^ 16)

/-- What a read of a register returns, reserved bits 0 (10_state.md R35 to R51). CMD reads 0; BUFDATA is not a storage
register, its read is `bufPortRead`. -/
def readReg (s : State) : Reg → Word64
  | .id => Config.idWord
  | .cap => BitVec.ofNat 64 (s.maxPix + s.bMax * 2 ^ 32)
  | .ctrl => packCtrl s.ctrl
  | .status => packStatus s.status
  | .faultInfo => BitVec.ofNat 64 ((s.faultInfo.code.map faultCode).getD 0 + s.faultInfo.cmdWord.toNat * 2 ^ 32)
  | .cmd => 0
  | .imgDim => packDims s.width s.height
  | .blkReq => packDims s.blkReq.w.toNat s.blkReq.h.toNat
  | .blkShape => packDims s.bw s.bh
  | .waveDim => packDims s.wWave s.hWave
  | .totBlk => BitVec.ofNat 64 s.totBlk
  | .dctCtx => BitVec.ofNat 64 (channelNumber s.dctCtx.ch + s.dctCtx.k.toNat * 2 ^ 8)
  | .phiShape => packDims s.phiShape.w.toNat s.phiShape.h.toNat
  | .bufSel => BitVec.ofNat 64 (s.bufSel.buf.toNat + s.bufSel.ch.toNat * 2 ^ 4)
  | .bufIdx => s.bufIdx.setWidth 64
  | .bufData => 0
  | .accInfo => BitVec.ofNat 64 ((s.accInfo.map accCode).getD 0)

/-- The host has read `v`. -/
def returnData (v : Word64) (s : State) : State := { s with hostData := v }

/-- A refused read: the access error is flagged and 0 returned (60_exceptions.md R261, R262). -/
def refuseRead (code : AccError) (s : State) : State := returnData 0 (flagAccErr code s)

/-- `BUFIDX <- (BUFIDX + 1) mod 2^32` (20_memory.md R88). -/
def bumpIndex (s : State) : State := { s with bufIdx := s.bufIdx + 1 }

/-- `BufPortRead()` (20_memory.md R86). -/
def bufPortRead (s : State) : State :=
  if s.status.busy then refuseRead .busy s
  else
    match selectBuf s.bufSel with
    | none => refuseRead .badSelect s
    | some b =>
      if s.capacity b ≤ s.bufIdx.toNat then refuseRead .indexRange s
      else bumpIndex (returnData (s.elem b s.bufIdx.toNat) s)

/-- `BufPortWrite(v)` (20_memory.md R89). -/
def bufPortWrite (v : Word64) (s : State) : State :=
  if s.status.busy then flagAccErr .busy s
  else
    match selectBuf s.bufSel with
    | none => flagAccErr .badSelect s
    | some b =>
      if hostReadOnly b then flagAccErr .readOnly s
      else if s.capacity b ≤ s.bufIdx.toNat then flagAccErr .indexRange s
      else bumpIndex (s.writeFrom b s.bufIdx.toNat 1 fun _ => v)

/-- `HostRead(off)` of `bits` bits (20_memory.md R82). -/
def hostRead (off : BitVec 8) (bits : Nat) (s : State) : State :=
  match hostTarget off bits with
  | none => refuseRead .badAccess s
  | some .bufData => bufPortRead s
  | some r => returnData (readReg s r) s

/-- A write that is refused while BUSY (20_memory.md R83, R91). -/
def unlessBusy (write : State → State) (s : State) : State :=
  if s.status.busy then flagAccErr .busy s else write s

/-- The two 16-bit fields of a written geometry register. -/
def writtenDims (v : Word64) : Dims := { w := v.extractLsb' 0 16, h := v.extractLsb' 16 16 }

/-- A write of IMGDIM (10_state.md R41). -/
def writeImgDim (v : Word64) (s : State) : State :=
  { s with imgDim := writtenDims v, status := clearGeometryFlags s.status }

/-- A write of BLKREQ (10_state.md R42). -/
def writeBlkReq (v : Word64) (s : State) : State :=
  { s with blkReq := writtenDims v, status := clearGeometryFlags s.status }

/-- A write of BUFSEL (10_state.md R48). -/
def writeBufSel (v : Word64) (s : State) : State :=
  { s with bufSel := { buf := v.extractLsb' 0 4, ch := v.extractLsb' 4 2 } }

/-- A write of BUFIDX (10_state.md R49). -/
def writeBufIdx (v : Word64) (s : State) : State := { s with bufIdx := v.extractLsb' 0 32 }

/-- A write of CTRL: bit 0 is the soft reset, and then the other bits are ignored (10_state.md R37, 20_memory.md R83). -/
def writeCtrl (v : Word64) (s : State) : State :=
  if v.getLsbD 0 then softReset s else { s with ctrl := { ieDone := v.getLsbD 1, ieFault := v.getLsbD 2 } }

/-- A write of STATUS: write one to clear DONE, FAULT, and ACCERR with ACCINFO (20_memory.md R83). -/
def writeStatus (v : Word64) (s : State) : State :=
  { s with
    status := w1cFlags v s.status
    accInfo := if v.getLsbD 4 then none else s.accInfo }

/-- `PresentCommand(w)` (30_encoding.md R116) and, for a word that is not discarded, `Accept(w)` (R117): an illegal word is
refused, a command does what `exec` says of it while the engine is idle. -/
def presentCommand (w : Word32) (s : State) : Outcome :=
  if s.status.busy then .next (flagAccErr .busy s)
  else if s.status.fault then .next (flagAccErr .faultPending s)
  else
    match decode w with
    | .error _ => .next (acceptIllegal w s)
    | .ok i => exec i s

/-- `HostWrite(off, v)` of `bits` bits (20_memory.md R83). -/
def hostWrite (off : BitVec 8) (bits : Nat) (v : Word64) (s : State) : Outcome :=
  match hostTarget off bits with
  | none => .next (flagAccErr .badAccess s)
  | some .ctrl => .next (writeCtrl v s)
  | some .status => .next (writeStatus v s)
  | some .cmd => presentCommand (v.extractLsb' 0 32) s
  | some .imgDim => .next (unlessBusy (writeImgDim v) s)
  | some .blkReq => .next (unlessBusy (writeBlkReq v) s)
  | some .bufSel => .next (unlessBusy (writeBufSel v) s)
  | some .bufIdx => .next (unlessBusy (writeBufIdx v) s)
  | some .bufData => .next (bufPortWrite v s)
  | some .id => .next s
  | some .cap => .next s
  | some .faultInfo => .next s
  | some .blkShape => .next s
  | some .waveDim => .next s
  | some .totBlk => .next s
  | some .dctCtx => .next s
  | some .phiShape => .next s
  | some .accInfo => .next s

/-- The engine's turn: the completion of the command in CURCMD, enabled exactly while BUSY = 1 (30_encoding.md R118). -/
def engineStep (s : State) : Outcome :=
  if s.status.busy then
    match decode s.curCmd with
    | .ok i => exec i s
    | .error _ => .fault (.undecodableLatch s.curCmd)
  else .next s

/-- What one event does (20_memory.md R94). -/
def applyEvent (e : Event) (s : State) : Outcome :=
  match e with
  | .read off bits => .next (hostRead off bits s)
  | .write off bits v => hostWrite off bits v s
  | .complete => engineStep s
  | .hardReset => .next (hardReset s)

end Sys2Proof.Machine
end

