-- ==== Sys2Proof/Machine/Step.lean ====
section
/-! DEFINITION. One step: the next event of the total order of 20_memory.md R94; when none is pending the engine completes the
command in flight, if any (70_reset_and_hazards.md R300). -/

namespace Sys2Proof.Machine

/-- One step of the machine. -/
def step (s : State) : Host.Outcome State Fault Refusal :=
  match s.events with
  | [] => engineStep s
  | e :: rest => applyEvent e { s with events := rest }

/-- The state in which the very next step is the engine's on the command word `w` (log 2): the word is in flight in CURCMD,
BUSY = 1 (10_state.md R33, R64), and no event comes before the engine's step. -/
def State.withFetchWord (s : State) (nbits w : Nat) : State :=
  { s with
    curCmd := BitVec.ofNat 32 (w % 2 ^ nbits)
    status := busyFlags s.status
    events := [] }

end Sys2Proof.Machine
end

