-- ==== Sys2Proof/Safety.lean ====
section
/-! DEFINITION. What a sound state is, in the terms the statements use: the canonical form of the buffers, and the relations
between flags, latch, geometry, map and tensor that the spec derives from its rules. -/

namespace Sys2Proof.Machine

/-- Every buffer name. -/
def allBufs : List Buf :=
  [.pixin, .pixout, .alpha, .chan .y, .chan .u, .chan .v, .sba .y, .sba .u, .sba .v, .sbh .y, .sbh .u, .sbh .v,
    .sbv .y, .sbv .u, .sbv .v, .sbd .y, .sbd .u, .sbd .v, .bmap, .coef, .sval, .phi, .svdu, .svdv]

/-- The memory's canonical form: every buffer's indices strictly rising, no entry equal to what an unlisted index holds. -/
def Memory.wf (s : State) : Bool := allBufs.all fun b => bufferWf s.unwritten (s.buf b)

/-- The parameters are in their ranges (00_scope.md R6). -/
def ParametersLegal (s : State) : Prop := 1 ≤ s.maxPix ∧ s.maxPix ≤ 2 ^ 26 ∧ 2 ≤ s.bMax ∧ s.bMax ≤ 32768

/-- DONE and FAULT are never both set, neither while BUSY (60_exceptions.md R259); ACCINFO reads 0 exactly when ACCERR = 0
(10_state.md R51); the last SVD cannot both have failed and left valid factors (10_state.md R38). -/
def FlagsCoherent (s : State) : Prop :=
  (s.status.busy = true → s.status.done = false ∧ s.status.fault = false) ∧
  ¬(s.status.done = true ∧ s.status.fault = true) ∧
  (s.accInfo = none ↔ s.status.accErr = false) ∧
  ¬(s.status.svdValid = true ∧ s.status.svdFail = true)

/-- The command in flight was accepted, and its checks still hold (30_encoding.md R117, 20_memory.md R91 and R94). -/
def CommandAccepted (s : State) : Prop :=
  s.status.busy = true → ∃ i, i.wf = true ∧ decode s.curCmd = .ok i ∧ firstFault (acceptChecks s i) = none

/-- While a valid flag is 1 the geometry is one the command that set it was accepted under (10_state.md R41, R42), the bound
block exists, and the basis slot matches (43_dct.md R194). -/
def GeometryBound (s : State) : Prop :=
  (s.status.mapValid = true → s.imgOk = true) ∧
  (s.status.dctValid = true →
    s.imgOk = true ∧ s.shapeOk = true ∧ s.dctCtx.k.toNat < s.totBlk ∧ s.phiOk = true) ∧
  (s.status.svdValid = true → s.shapeOk = true)

/-- The control invariant. -/
def ControlSound (s : State) : Prop := FlagsCoherent s ∧ CommandAccepted s ∧ GeometryBound s

/-- BMAP holds the map of the current geometry (41_geometry_blockmap.md R157). -/
def MapLoaded (s : State) : Prop := ∀ k < s.waves, s.elem .bmap k = BitVec.ofNat 64 (mapEntry s k)

/-- While MAP_VALID = 1 the map is the pure function of the geometry (10_state.md R59, 92_eei_decisions.md D34). -/
def MapSound (s : State) : Prop := s.status.mapValid = true → MapLoaded s

/-- While PHI_VALID = 1 the tensor is the pure function of PHISHAPE (10_state.md R62, 92_eei_decisions.md D34). -/
def TensorSound (s : State) : Prop :=
  s.status.phiValid = true →
    ∀ n < (s.phiShape.w.toNat * s.phiShape.h.toNat) ^ 2,
      s.elem .phi n = tensorEntry s.basis s.phiShape.w.toNat s.phiShape.h.toNat n

/-- The state a command fault leaves: DONE cleared by `Accept`, FAULT set, code and word recorded, nothing else
(30_encoding.md R117, 60_exceptions.md R252). -/
def refusedWith (f : CmdFault) (w : Word32) (s : State) : State :=
  { s with
    status := { s.status with done := false, fault := true }
    faultInfo := { code := some f, cmdWord := w } }

/-- The state the acceptance of the word `w` leaves: DONE cleared, BUSY set, the word in CURCMD, nothing else
(30_encoding.md R117). -/
def latched (w : Word32) (s : State) : State :=
  { s with
    status := { s.status with done := false, busy := true }
    curCmd := w }

/-- The state a refused access leaves: ACCERR set, the first code kept, nothing else (60_exceptions.md R262). -/
def accessRefused (c : AccError) (s : State) : State :=
  { s with
    status := { s.status with accErr := true }
    accInfo := if s.status.accErr = true then s.accInfo else some c }

/-- The real 1-D DCT-II basis value phi_d[i, k] (43_dct.md R190). -/
noncomputable def basisReal (d i k : Nat) : ℝ :=
  if i = 0 then 1 / Real.sqrt d
  else Real.sqrt (2 / d) * Real.cos (i * Real.pi * (2 * k + 1) / (2 * d))

/-- An instance of `BASIS1D` is admissible for a length: each value is within 2^-52 of the real one (43_dct.md R190). -/
def BasisAdmissible (rom : BasisRom) (d : Nat) : Prop :=
  ∀ i < d, ∀ k < d, |((ratOfF64 (basis1d rom d i k) : ℚ) : ℝ) - basisReal d i k| ≤ 1 / 2 ^ 52

/-- A binary32 pattern is a quiet NaN: a NaN with the first bit of its fraction set (00_scope.md R15). -/
def IsQuietNan32 (v : Word32) : Prop := fp32 v = .nan ∧ v.getLsbD 22 = true

/-- A binary64 pattern is a quiet NaN. -/
def IsQuietNan64 (v : Word64) : Prop := fp64 v = .nan ∧ v.getLsbD 51 = true

/-- The units of a magnitude pattern of a format (00_scope.md R13). -/
def magnitudeUnits (F : Format) (p : Nat) : Nat := unitsOf F (p / 2 ^ F.fracBits) (p % 2 ^ F.fracBits)

/-- The distance of two naturals. -/
def distance (a b : Nat) : Nat := (a - b) + (b - a)

end Sys2Proof.Machine
end

