-- ==== Sys2Proof/Certificates/Slice0/Obligations.lean ====
section
/-! DEFINITION. The statements about the machine. Each formalises the rules its docstring names. -/

open Sys2Proof Sys2Proof.Machine

/-! ### Encoding -/

/-- 30_encoding.md R113, R115: decoding the word of a well-formed command gives it back, with every operand. -/
def Obligations.DecodeReadsEncodedCommand : Prop :=
  ∀ i : Instr, i.wf = true → decode (encode i) = .ok i

/-- 30_encoding.md R113, R115: a word that decodes is the one word of a well-formed command; no bit is ignored. -/
def Obligations.EncodeWritesDecodedWord : Prop :=
  ∀ (w : Word32) (i : Instr), decode w = .ok i → i.wf = true ∧ encode i = w

/-- 30_encoding.md R114: the illegal words, and what presenting one does to an engine that is idle with no fault pending. -/
def Obligations.IllegalWordsRaiseIllegalCmd : Prop :=
  ∀ w : Word32,
    let opc := w.toNat % 64
    let illegal :=
      opc = 0 ∨ 0x0B ≤ opc ∨ (opc ∈ [1, 2, 3, 6, 8, 9, 10] ∧ w.toNat / 64 ≠ 0) ∨
      (opc ∈ [4, 5] ∧ w.toNat / 512 ≠ 0) ∨ (opc ∈ [4, 5, 7] ∧ w.toNat / 64 % 4 = 3)
    ((∃ e, decode w = .error e) ↔ illegal) ∧
    (∃ e, decode 0 = .error e) ∧
    (illegal → ∀ (s : State) (rest : List Event) (v : Word64), v.extractLsb' 0 32 = w →
      s.events = .write 0x28 64 v :: rest → s.status.busy = false → s.status.fault = false →
      step s = .next (refusedWith .illegalCmd w { s with events := rest }))

/-- 95_test_vectors.md section 2.6: the sample words decode as the spec lists them. -/
def Obligations.SampleWordsDecode : Prop :=
  decode 0x00000001 = .ok .rgb2yuv ∧ decode 0x00000002 = .ok .yuv2rgb ∧ decode 0x00000003 = .ok .mapgen ∧
  decode 0x00000104 = .ok (.dwt .y true) ∧ decode 0x00000084 = .ok (.dwt .v false) ∧
  decode 0x00000145 = .ok (.idwt .u true) ∧ decode 0x00000006 = .ok .dctinit ∧ decode 0x00000007 = .ok (.dct .y 0) ∧
  decode 0x00000587 = .ok (.dct .v 5) ∧ decode 0xFFFFFF47 = .ok (.dct .u 16777215) ∧ decode 0x00000008 = .ok .idct ∧
  decode 0x00000009 = .ok .svd ∧ decode 0x0000000A = .ok .isvd ∧
  decode 0x00000000 = .error .unknownOpcode ∧ decode 0x0000000B = .error .unknownOpcode ∧
  decode 0x0000003F = .error .unknownOpcode ∧ decode 0x00000204 = .error .mustBeZero ∧
  decode 0x000000C4 = .error .badChannel ∧ decode 0x000000C7 = .error .badChannel ∧
  decode 0x0000010A = .error .mustBeZero ∧ decode 0x80000001 = .error .mustBeZero

/-! ### A step and the commands it runs -/

/-- 30_encoding.md R118: the engine's step runs the command in CURCMD, exactly while BUSY = 1. That it comes when no event is
pending is the model's choice (log 3; 70_reset_and_hazards.md R300). -/
def Obligations.StepRunsCommandInFlight : Prop :=
  (∀ (s : State) (i : Instr), s.status.busy = true → decode s.curCmd = .ok i →
    (s.events = [] → step s = exec i s) ∧
    ∀ rest, s.events = .complete :: rest → step s = exec i { s with events := rest }) ∧
  (∀ s : State, s.status.busy = false →
    (s.events = [] → step s = .next s) ∧
    ∀ rest, s.events = .complete :: rest → step s = .next { s with events := rest })

/-- 30_encoding.md R116: a word written to CMD is discarded while BUSY or while FAULT = 1, and reaches `Accept` otherwise. -/
def Obligations.PresentedWordIsDiscardedOrAccepted : Prop :=
  ∀ (s : State) (rest : List Event) (v : Word64), s.events = .write 0x28 64 v :: rest →
    let t := { s with events := rest }
    (s.status.busy = true → step s = .next (accessRefused .busy t)) ∧
    (s.status.busy = false → s.status.fault = true → step s = .next (accessRefused .faultPending t)) ∧
    (s.status.busy = false → s.status.fault = false →
      (∀ i, decode (v.extractLsb' 0 32) = .ok i → step s = exec i t) ∧
      (∀ e, decode (v.extractLsb' 0 32) = .error e →
        step s = .next (refusedWith .illegalCmd (v.extractLsb' 0 32) t)))

/-! ### Acceptance and command faults -/

/-- 30_encoding.md R117, 60_exceptions.md R251: RGB2YUV, YUV2RGB and MAPGEN are accepted exactly when IMG_OK holds. -/
def Obligations.ImageCommandsNeedLegalImage : Prop :=
  ∀ s : State, s.status.busy = false → ∀ c ∈ [(Instr.rgb2yuv, 0x1#32), (.yuv2rgb, 0x2#32), (.mapgen, 0x3#32)],
    exec c.1 s = .next
      (if 1 ≤ s.width ∧ 1 ≤ s.height ∧ s.width * s.height ≤ s.maxPix then latched c.2 s else refusedWith .badImg c.2 s)

/-- 30_encoding.md R117, 60_exceptions.md R251, R253: DWT and IDWT check IMG_OK, then MAP_VALID when M = 1. -/
def Obligations.WaveletCommandsNeedImageThenMap : Prop :=
  ∀ (s : State) (ch : Channel) (m : Bool), s.status.busy = false →
    ∀ c ∈ [(Instr.dwt ch m, 4 + 64 * channelNumber ch + 256 * m.toNat), (.idwt ch m, 5 + 64 * channelNumber ch + 256 * m.toNat)],
      let w := BitVec.ofNat 32 c.2
      exec c.1 s = .next
        (if ¬(1 ≤ s.width ∧ 1 ≤ s.height ∧ s.width * s.height ≤ s.maxPix) then refusedWith .badImg w s
        else if m = true ∧ s.status.mapValid = false then refusedWith .noMap w s
        else latched w s)

/-- 30_encoding.md R117, 60_exceptions.md R251, R253: DCT checks IMG_OK, then SHAPE_OK, then the block number. -/
def Obligations.DctNeedsImageThenShapeThenBlock : Prop :=
  ∀ (s : State) (ch : Channel) (k : Nat), k < 2 ^ 24 → s.status.busy = false →
    let w := BitVec.ofNat 32 (7 + 64 * channelNumber ch + 256 * k)
    exec (.dct ch k) s = .next
      (if ¬(1 ≤ s.width ∧ 1 ≤ s.height ∧ s.width * s.height ≤ s.maxPix) then refusedWith .badImg w s
      else if ¬(s.bw ≤ s.bMax ∧ s.bh ≤ s.bMax) then refusedWith .badShape w s
      else if s.totBlk ≤ k then refusedWith .blkRange w s
      else latched w s)

/-- 30_encoding.md R117, 60_exceptions.md R251: DCTINIT and SVD check SHAPE_OK, IDCT checks DCT_VALID, ISVD SVD_VALID. -/
def Obligations.ShapeAndValidFlagCommandsChecked : Prop :=
  ∀ s : State, s.status.busy = false →
    (∀ c ∈ [(Instr.dctinit, 0x6#32), (.svd, 0x9#32)],
      exec c.1 s = .next (if s.bw ≤ s.bMax ∧ s.bh ≤ s.bMax then latched c.2 s else refusedWith .badShape c.2 s)) ∧
    exec .idct s = .next (if s.status.dctValid = true then latched 0x8 s else refusedWith .noDct 0x8 s) ∧
    exec .isvd s = .next (if s.status.svdValid = true then latched 0xA s else refusedWith .noSvd 0xA s)

/-- 60_exceptions.md R252: a raised fault, of a command whose check fails or of an illegal word, sets FAULT and writes
FAULTINFO; DONE was cleared by `Accept`; nothing else changes, and the interrupt line follows. -/
def Obligations.RaisedFaultChangesNothingElse : Prop :=
  (∀ (i : Instr) (s : State) (f : CmdFault), i.wf = true → s.status.busy = false →
    firstFault (acceptChecks s i) = some f →
    ∃ t, exec i s = .next t ∧
      t = { s with
        status := { s.status with done := false, fault := true }
        faultInfo := { code := some f, cmdWord := encode i } } ∧
      t.irq = s.ctrl.ieFault) ∧
  ∀ (w : Word32) (s : State) (e : DecodeError), decode w = .error e → s.status.busy = false → s.status.fault = false →
    ∃ t, presentCommand w s = .next t ∧
      t = { s with
        status := { s.status with done := false, fault := true }
        faultInfo := { code := some .illegalCmd, cmdWord := w } } ∧
      t.irq = s.ctrl.ieFault

/-- 10_state.md R38, 20_memory.md R83, 60_exceptions.md R257: what a write of STATUS does, whether or not BUSY: the host ends
a fault with bit 2, acknowledges completion with bit 1, clears the access-error record with bit 4; FAULTINFO stays. -/
def Obligations.StatusWriteClearsOnesOnly : Prop :=
  ∀ (s : State) (rest : List Event) (v : Word64), s.events = .write 0x18 64 v :: rest →
    step s = .next { s with
      events := rest
      status := { s.status with
        done := s.status.done && !v.getLsbD 1
        fault := s.status.fault && !v.getLsbD 2
        accErr := s.status.accErr && !v.getLsbD 4 }
      accInfo := if v.getLsbD 4 then none else s.accInfo }

/-! ### What each command does, and its frame -/

/-- 40_color.md R134, R136: RGB2YUV completes with the converted samples and the alpha values, and changes nothing else.
That CURCMD keeps its word is the model's choice (log 24). -/
def Obligations.Rgb2yuvWritesChannelsAndAlpha : Prop :=
  ∀ s : State, s.status.busy = true → ∃ t, exec .rgb2yuv s = .next t ∧
    (∀ i < s.width * s.height,
      let p := s.elem .pixin i
      let c := fwdColor (p.extractLsb' 0 8) (p.extractLsb' 8 8) (p.extractLsb' 16 8)
      t.elem32 (.chan .y) i = c.y ∧ t.elem32 (.chan .u) i = c.u ∧ t.elem32 (.chan .v) i = c.v ∧
      t.elem .alpha i = (p.extractLsb' 24 16).setWidth 64) ∧
    (∀ b i, s.width * s.height ≤ i ∨ b ∉ [Buf.chan .y, .chan .u, .chan .v, .alpha] → t.elem b i = s.elem b i) ∧
    t = { s with chan := t.chan, alpha := t.alpha, status := { s.status with busy := false, done := true } }

/-- 40_color.md R135, R137, 10_state.md R55: YUV2RGB completes with the clipped pixels, alpha copied, and changes nothing
else.
That CURCMD keeps its word is the model's choice (log 24). -/
def Obligations.Yuv2rgbWritesPixels : Prop :=
  ∀ s : State, s.status.busy = true → ∃ t, exec .yuv2rgb s = .next t ∧
    (∀ i < s.width * s.height,
      let c := invColor { y := s.elem32 (.chan .y) i, u := s.elem32 (.chan .u) i, v := s.elem32 (.chan .v) i }
      let p := t.elem .pixout i
      p.extractLsb' 0 16 = c.r ∧ p.extractLsb' 16 16 = c.g ∧ p.extractLsb' 32 16 = c.b ∧
      (p.extractLsb' 48 16).setWidth 64 = s.elem .alpha i) ∧
    (∀ b i, s.width * s.height ≤ i ∨ b ≠ .pixout → t.elem b i = s.elem b i) ∧
    t = { s with pixout := t.pixout, status := { s.status with busy := false, done := true } }

/-- 41_geometry_blockmap.md R156, R157: MAPGEN completes with the map of the wavelet grid, and changes nothing else.
That CURCMD keeps its word is the model's choice (log 24). -/
def Obligations.MapgenWritesBlockMap : Prop :=
  ∀ s : State, s.status.busy = true → ∃ t, exec .mapgen s = .next t ∧
    (∀ x < s.wWave, ∀ y < s.hWave,
      (t.elem .bmap (y * s.wWave + x)).toNat = mapIdx s.wWave s.hWave s.bw s.bh x y) ∧
    (∀ b i, s.wWave * s.hWave ≤ i ∨ b ≠ .bmap → t.elem b i = s.elem b i) ∧
    t = { s with bmap := t.bmap, status := { s.status with busy := false, done := true, mapValid := true } }

/-- 42_dwt.md R171, R173, R174: DWT completes; with the identity, or a BMAP that holds the map of the geometry, each kernel's
four coefficients are at their storage index; elements no kernel is stored at, and everything else, are unchanged.
That CURCMD keeps its word is the model's choice (log 24). -/
def Obligations.DwtWritesSubbands : Prop :=
  ∀ (ch : Channel) (m : Bool) (s : State), s.status.busy = true → ∃ t, exec (.dwt ch m) s = .next t ∧
    ((m = true → MapLoaded s) → ∀ x y, 2 * x < s.width → 2 * y < s.height →
      let x1 := min (2 * x + 1) (s.width - 1)
      let y1 := min (2 * y + 1) (s.height - 1)
      let left := cacd32 (sample s ch (2 * x) (2 * y)) (sample s ch (2 * x) y1)
      let right := cacd32 (sample s ch x1 (2 * y)) (sample s ch x1 y1)
      let j := if m then mapIdx s.wWave s.hWave s.bw s.bh x y else y * s.wWave + x
      t.elem32 (.sba ch) j = (cacd32 left.a right.a).a ∧ t.elem32 (.sbv ch) j = (cacd32 left.a right.a).d ∧
      t.elem32 (.sbh ch) j = (cacd32 left.d right.d).a ∧ t.elem32 (.sbd ch) j = (cacd32 left.d right.d).d) ∧
    (∀ b j, (b ∈ [Buf.sba ch, .sbh ch, .sbv ch, .sbd ch] →
        ∀ k < s.wWave * s.hWave, (if m then (s.elem .bmap k).toNat else k) ≠ j) → t.elem b j = s.elem b j) ∧
    t = { s with
      sba := t.sba, sbh := t.sbh, sbv := t.sbv, sbd := t.sbd
      status := { s.status with busy := false, done := true } }

/-- 42_dwt.md R172, R175, R177: IDWT completes with every sample of the channel, and changes nothing else.
That CURCMD keeps its word is the model's choice (log 24). -/
def Obligations.IdwtWritesChannel : Prop :=
  ∀ (ch : Channel) (m : Bool) (s : State), s.status.busy = true → ∃ t, exec (.idwt ch m) s = .next t ∧
    (∀ x < s.width, ∀ y < s.height,
      let k := y / 2 * s.wWave + x / 2
      let j := if m then (s.elem .bmap k).toNat else k
      let a := icacd32 (s.elem32 (.sba ch) j) (s.elem32 (.sbv ch) j)
      let d := icacd32 (s.elem32 (.sbh ch) j) (s.elem32 (.sbd ch) j)
      let column := if x % 2 = 0 then icacd32 a.a d.a else icacd32 a.d d.d
      t.elem32 (.chan ch) (y * s.width + x) = if y % 2 = 0 then column.a else column.d) ∧
    (∀ b i, s.width * s.height ≤ i ∨ b ≠ .chan ch → t.elem b i = s.elem b i) ∧
    t = { s with chan := t.chan, status := { s.status with busy := false, done := true } }

/-- 43_dct.md R192, R193: DCTINIT completes with the tensor of the block shape, its tag and PHI_VALID, and changes nothing
else.
That CURCMD keeps its word is the model's choice (log 24). -/
def Obligations.DctinitBuildsTensor : Prop :=
  ∀ s : State, s.status.busy = true → ∃ t, exec .dctinit s = .next t ∧
    (∀ i < s.bh, ∀ j < s.bw, ∀ x < s.bh, ∀ y < s.bw,
      t.elem .phi (((i * s.bw + j) * s.bh + x) * s.bw + y) = mul64 (basis1d s.basis s.bh i x) (basis1d s.basis s.bw j y)) ∧
    (∀ b n, (s.bw * s.bh) ^ 2 ≤ n ∨ b ≠ .phi → t.elem b n = s.elem b n) ∧
    t.phiShape.w.toNat = s.bw ∧ t.phiShape.h.toNat = s.bh ∧
    t = { s with
      phi := t.phi, phiShape := t.phiShape
      status := { s.status with busy := false, done := true, phiValid := true } }

/-- 43_dct.md R191, R194, R195: DCT completes with the coefficients of its block under the tensor it leaves in PHI, which is
the old one when the slot matched and the one of the block shape otherwise; it binds DCTCTX and changes nothing else.
That CURCMD keeps its word is the model's choice (log 24). -/
def Obligations.DctWritesCoefficients : Prop :=
  ∀ (ch : Channel) (k : Nat) (s : State), k < 2 ^ 24 → s.status.busy = true → ∃ t, exec (.dct ch k) s = .next t ∧
    (∀ i < s.bh, ∀ j < s.bw,
      t.elem .coef (i * s.bw + j) =
        accumulate s.bh (fun x acc => accumulate s.bw (fun y acc =>
          add64 acc (mul64 (t.elem .phi (((i * s.bw + j) * s.bh + x) * s.bw + y))
            (f64OfF32 (s.elem32 (.sba ch) (k * (s.bw * s.bh) + (x * s.bw + y)))))) acc) 0) ∧
    (s.phiOk = true → t.phi = s.phi ∧ t.phiShape = s.phiShape) ∧
    (s.phiOk = false → ∀ i < s.bh, ∀ j < s.bw, ∀ x < s.bh, ∀ y < s.bw,
      t.elem .phi (((i * s.bw + j) * s.bh + x) * s.bw + y) = mul64 (basis1d s.basis s.bh i x) (basis1d s.basis s.bw j y)) ∧
    t.phiShape.w.toNat = s.bw ∧ t.phiShape.h.toNat = s.bh ∧
    (∀ b n, (b = .coef → s.bw * s.bh ≤ n) → (b = .phi → (s.bw * s.bh) ^ 2 ≤ n) → t.elem b n = s.elem b n) ∧
    t.dctCtx.ch = ch ∧ t.dctCtx.k.toNat = k ∧
    t = { s with
      coef := t.coef, phi := t.phi, phiShape := t.phiShape, dctCtx := t.dctCtx
      status := { s.status with busy := false, done := true, phiValid := true, dctValid := true } }

/-- 43_dct.md R196: IDCT completes with the inverse transform in the slice DCTCTX names, rounded once to binary32, and changes
nothing else; DCT_VALID stays.
That CURCMD keeps its word is the model's choice (log 24). -/
def Obligations.IdctWritesBoundBlock : Prop :=
  ∀ s : State, s.status.busy = true → ∃ t, exec .idct s = .next t ∧
    (∀ x < s.bh, ∀ y < s.bw,
      t.elem32 (.sba s.dctCtx.ch) (s.dctCtx.k.toNat * (s.bw * s.bh) + (x * s.bw + y)) =
        f32OfF64 (accumulate s.bh (fun i acc => accumulate s.bw (fun j acc =>
          add64 acc (mul64 (s.elem .phi (((i * s.bw + j) * s.bh + x) * s.bw + y)) (s.elem .coef (i * s.bw + j)))) acc) 0)) ∧
    (∀ b n, (b = .sba s.dctCtx.ch →
        n < s.dctCtx.k.toNat * (s.bw * s.bh) ∨ s.dctCtx.k.toNat * (s.bw * s.bh) + s.bw * s.bh ≤ n) →
      t.elem b n = s.elem b n) ∧
    t = { s with sba := t.sba, status := { s.status with busy := false, done := true } }

/-- 44_svd.md R212, R213: SVD completes whatever the solver answers. A triple is stored and SVD_VALID set; a failure changes
two flags only and is no fault.
That CURCMD keeps its word is the model's choice (log 24). -/
def Obligations.SvdStoresFactorsOrReportsFailure : Prop :=
  ∀ s : State, s.status.busy = true → ∃ t, exec .svd s = .next t ∧
    match svdSolver s.bh s.bw ((List.range (s.bw * s.bh)).map (s.elem .coef)) with
    | some f =>
      (∀ i < min s.bw s.bh, t.elem .sval i = f.s.getD i 0) ∧
      (∀ n < s.bh * min s.bw s.bh, t.elem .svdu n = f.u.getD n 0) ∧
      (∀ n < s.bw * min s.bw s.bh, t.elem .svdv n = f.v.getD n 0) ∧
      (∀ b n, (b = .sval → min s.bw s.bh ≤ n) → (b = .svdu → s.bh * min s.bw s.bh ≤ n) →
        (b = .svdv → s.bw * min s.bw s.bh ≤ n) → t.elem b n = s.elem b n) ∧
      t = { s with
        sval := t.sval, svdu := t.svdu, svdv := t.svdv
        status := { s.status with busy := false, done := true, svdValid := true, svdFail := false } }
    | none => t = { s with status := { s.status with busy := false, done := true, svdValid := false, svdFail := true } }

/-- 44_svd.md R214: ISVD completes with the reconstruction from the factors and the current SVAL, and changes nothing else;
SVD_VALID stays.
That CURCMD keeps its word is the model's choice (log 24). -/
def Obligations.IsvdWritesReconstruction : Prop :=
  ∀ s : State, s.status.busy = true → ∃ t, exec .isvd s = .next t ∧
    (∀ a < s.bh, ∀ b < s.bw,
      t.elem .coef (a * s.bw + b) =
        accumulate (min s.bw s.bh) (fun i acc =>
          add64 acc (mul64 (mul64 (s.elem .svdu (a * min s.bw s.bh + i)) (s.elem .sval i))
            (s.elem .svdv (b * min s.bw s.bh + i)))) 0) ∧
    (∀ b n, s.bw * s.bh ≤ n ∨ b ≠ .coef → t.elem b n = s.elem b n) ∧
    t = { s with coef := t.coef, status := { s.status with busy := false, done := true } }

/-! ### Geometry and block map -/

/-- 41_geometry_blockmap.md R159: MAPGEN leaves a permutation, and the three branches of the map have disjoint ranges. -/
def Obligations.BlockMapIsBijection : Prop :=
  (∀ s : State, s.status.busy = true → ∃ t, exec .mapgen s = .next t ∧
    ∀ v < s.wWave * s.hWave, ∃! k, k < s.wWave * s.hWave ∧ (t.elem .bmap k).toNat = v) ∧
  ∀ wd ht bw bh x y : Nat, 0 < bw → 0 < bh → x < wd → y < ht →
    let allocW := wd / bw * bw
    let allocH := ht / bh * bh
    let i := mapIdx wd ht bw bh x y
    if allocH ≤ y then allocH * wd ≤ i ∧ i < ht * wd
    else if allocW ≤ x then allocW * allocH ≤ i ∧ i < allocH * wd
    else i < allocW * allocH

/-- 41_geometry_blockmap.md R160: block k occupies the index range [k*A, (k+1)*A), row-major inside; the whole blocks are
TOTBLK in number. -/
def Obligations.BlockSlicesAreContiguous : Prop :=
  (∀ wd ht bw bh brow bcol bx bY : Nat, brow < ht / bh → bcol < wd / bw → bx < bw → bY < bh →
    mapIdx wd ht bw bh (bcol * bw + bx) (brow * bh + bY) =
      (brow * (wd / bw * bw / bw) + bcol) * (bw * bh) + bY * bw + bx) ∧
  ∀ s : State,
    s.totBlk * (s.bw * s.bh) = (s.wWave / s.bw * s.bw) * (s.hWave / s.bh * s.bh) ∧
    (s.wWave / s.bw * s.bw) * (s.hWave / s.bh * s.bh) ≤ s.wWave * s.hWave

/-- 41_geometry_blockmap.md R158: the ranges of the map's values and intermediate products, and of TOTBLK. -/
def Obligations.MapAndBlockCountInRange : Prop :=
  ∀ s : State, s.imgOk = true → s.maxPix ≤ 2 ^ 26 →
    let n := s.wWave * s.hWave
    let allocW := s.wWave / s.bw * s.bw
    let allocH := s.hWave / s.bh * s.bh
    (∀ x < s.wWave, ∀ y < s.hWave,
      mapIdx s.wWave s.hWave s.bw s.bh x y < n ∧ y * s.wWave ≤ n ∧ allocW * allocH ≤ n ∧
      (y < allocH → allocW ≤ x → y * (s.wWave - allocW) ≤ n) ∧
      (y < allocH → x < allocW →
        allocW * s.bh ≤ n ∧ s.bw * s.bh ≤ n ∧ y / s.bh * (allocW * s.bh) ≤ n ∧ x / s.bw * (s.bw * s.bh) ≤ n ∧
        y % s.bh * s.bw ≤ n)) ∧
    n ≤ s.maxPix ∧ s.totBlk ≤ n / 4 ∧ n / 4 ≤ (s.width + 1) * (s.height + 1) / 16 ∧
    (s.width + 1) * (s.height + 1) / 16 < 2 ^ 23 ∧ allocW ≤ n ∧ allocH ≤ n

/-- 41_geometry_blockmap.md R154, R155: what IMG_OK and SHAPE_OK are and what they give room for. -/
def Obligations.ImageAndShapeChecksGiveRoom : Prop :=
  ∀ s : State,
    (s.imgOk = true ↔ 1 ≤ s.width ∧ 1 ≤ s.height ∧ s.width * s.height ≤ s.maxPix) ∧
    (s.imgOk = true → 1 ≤ s.wWave ∧ 1 ≤ s.hWave ∧ s.wWave * s.hWave ≤ s.width * s.height ∧ s.width * s.height ≤ s.maxPix) ∧
    (s.shapeOk = true ↔ s.bw ≤ s.bMax ∧ s.bh ≤ s.bMax) ∧ 2 ≤ s.bw ∧ 2 ≤ s.bh ∧
    (s.shapeOk = true → s.bw * s.bh ≤ s.bMax ^ 2 ∧ min s.bw s.bh ≤ s.bMax ∧ (s.bw * s.bh) ^ 2 ≤ s.bMax ^ 4)

/-- 41_geometry_blockmap.md R150: the canonical dimension, its range and the listed values. -/
def Obligations.CanonicalDimension : Prop :=
  (∀ r < 65536,
    canon r = max ((if r = 0 then 8 else r) + (if r = 0 then 8 else r) % 2) 4 / 2 ∧ 2 ≤ canon r ∧ canon r ≤ 32768) ∧
  canon 0 = 4 ∧ canon 1 = 2 ∧ canon 2 = 2 ∧ canon 3 = 2 ∧ canon 4 = 2 ∧ canon 5 = 3 ∧ canon 6 = 3 ∧ canon 7 = 4 ∧
  canon 8 = 4 ∧ canon 9 = 5 ∧ canon 10 = 5 ∧ canon 16 = 8 ∧ canon 32 = 16 ∧ canon 65535 = 32768 ∧
  ∀ s : State, s.bw = canon s.blkReq.w.toNat ∧ s.bh = canon s.blkReq.h.toNat

/-- 10_state.md R43, R44, R45: what the derived registers read, without loss, and after reset; a host write of one, or of
another read-only register, is ignored (20_memory.md R83). -/
def Obligations.DerivedRegistersRead : Prop :=
  (∀ s : State,
    (readReg s .blkShape).toNat = canon s.blkReq.w.toNat + 2 ^ 16 * canon s.blkReq.h.toNat ∧
    2 ≤ s.bw ∧ s.bw ≤ 32768 ∧ 2 ≤ s.bh ∧ s.bh ≤ 32768 ∧
    (readReg s .waveDim).toNat = (s.width + 1) / 2 + 2 ^ 16 * ((s.height + 1) / 2) ∧
    (s.width + 1) / 2 ≤ 32768 ∧ (s.height + 1) / 2 ≤ 32768 ∧
    (readReg s .totBlk).toNat = ((s.width + 1) / 2 / s.bw) * ((s.height + 1) / 2 / s.bh) ∧
    ((s.width + 1) / 2 / s.bw) * ((s.height + 1) / 2 / s.bh) ≤ 2 ^ 28) ∧
  readReg State.reset .blkShape = 0x0000000000040004 ∧ readReg State.reset .waveDim = 0 ∧ readReg State.reset .totBlk = 0 ∧
  ∀ (s : State) (rest : List Event) (v : Word64), ∀ off ∈ [0x00#8, 0x08, 0x20, 0x40, 0x48, 0x50, 0x58, 0x60, 0x80],
    s.events = .write off 64 v :: rest →
    step s = .next { s with events := rest }

/-! ### Properties of the transforms -/

/-- 42_dwt.md R174 (corner cases): at the edge columns and rows of odd extents the details are +0 exactly, for finite samples
whose sums do not overflow, with the identity and through a BMAP that holds the map. -/
def Obligations.EdgeReplicationZeroesDetails : Prop :=
  (∀ (u : Word32) (neg : Bool) (m : Nat), fp32 u = .fin neg m → m < 2 ^ 276 → (cacd32 u u).d = 0) ∧
  ∀ (ch : Channel) (m : Bool) (s t : State), s.status.busy = true → (m = true → MapLoaded s) →
    exec (.dwt ch m) s = .next t →
    (∀ i < s.width * s.height, ∃ neg u, fp32 (s.elem32 (.chan ch) i) = .fin neg u ∧ u < 2 ^ 270) →
    let j := fun x y => if m then mapIdx s.wWave s.hWave s.bw s.bh x y else y * s.wWave + x
    (s.width % 2 = 1 → ∀ y < s.hWave,
      t.elem32 (.sbv ch) (j (s.wWave - 1) y) = 0 ∧ t.elem32 (.sbd ch) (j (s.wWave - 1) y) = 0) ∧
    (s.height % 2 = 1 → ∀ x < s.wWave,
      t.elem32 (.sbh ch) (j x (s.hWave - 1)) = 0 ∧ t.elem32 (.sbd ch) (j x (s.hWave - 1)) = 0)

/-- 42_dwt.md R180: DWT and IDWT of a channel touch that channel's banks only, read nothing of another channel, and those of
two channels may be run in any order. -/
def Obligations.ChannelsAreIndependent : Prop :=
  ∀ (ch : Channel) (m : Bool), ∀ f ∈ [effectDwt ch m, effectIdwt ch m],
    (∀ (s : State) (b : Buf), b ∉ [Buf.chan ch, .sba ch, .sbh ch, .sbv ch, .sbd ch] → ∀ i, (f s).elem b i = s.elem b i) ∧
    (∀ s t : State, s.imgDim = t.imgDim →
      (∀ b ∈ [Buf.chan ch, .sba ch, .sbh ch, .sbv ch, .sbd ch, .bmap], ∀ i, s.elem b i = t.elem b i) →
      ∀ b ∈ [Buf.chan ch, .sba ch, .sbh ch, .sbv ch, .sbd ch], ∀ i, (f s).elem b i = (f t).elem b i) ∧
    ∀ (c : Channel) (m' : Bool), c ≠ ch → ∀ g ∈ [effectDwt c m', effectIdwt c m'], ∀ s : State, f (g s) = g (f s)

/-- 40_color.md R138 (alpha): RGB2YUV then YUV2RGB carries every alpha value bit for bit. -/
def Obligations.AlphaSurvivesColourRoundTrip : Prop :=
  ∀ s t u : State, s.status.busy = true → exec .rgb2yuv s = .next t → exec .yuv2rgb (latched 0x2 t) = .next u →
    ∀ i < s.width * s.height, (u.elem .pixout i).extractLsb' 48 16 = (s.elem .pixin i).extractLsb' 24 16

/-- 40_color.md R138 (colour): RGB2YUV then YUV2RGB brings every component back to within 512 of 257 times its value. -/
def Obligations.ColourRoundTripWithinTolerance : Prop :=
  ∀ s t u : State, s.status.busy = true → exec .rgb2yuv s = .next t → exec .yuv2rgb (latched 0x2 t) = .next u →
    ∀ i < s.width * s.height, ∀ c < 3,
      distance ((u.elem .pixout i).extractLsb' (16 * c) 16).toNat (257 * ((s.elem .pixin i).extractLsb' (8 * c) 8).toNat) ≤ 512

/-- 40_color.md R136 (corner cases): every sample RGB2YUV writes is finite. -/
def Obligations.ForwardColourIsFinite : Prop :=
  ∀ r g b : BitVec 8, ∀ v ∈ [(fwdColor r g b).y, (fwdColor r g b).u, (fwdColor r g b).v], ∃ neg m, fp32 v = .fin neg m

/-- 40_color.md R135: for 0 <= v <= 255 the product with 257 truncates into 16 bits, so `Clip16` is that integer; outside, the
ends; NaN apart. -/
def Obligations.ClipSixteenStaysInRange : Prop :=
  (∀ (v : Word32) (m : Nat), fp32 v = .fin false m → m ≤ 255 * 2 ^ 149 →
    truncNat32 (mul32 v 0x43808000) ≤ 65535 ∧ (clip16 v).toNat = truncNat32 (mul32 v 0x43808000)) ∧
  (∀ (v : Word32) (m : Nat), fp32 v = .fin false m → 255 * 2 ^ 149 < m → clip16 v = 65535) ∧
  (∀ (v : Word32) (m : Nat), fp32 v = .fin true m → clip16 v = 0) ∧
  clip16 0x7F800000 = 65535 ∧ clip16 0xFF800000 = 0 ∧ clip16 0x437F0000 = 65535 ∧ clip16 0x80000000 = 0

/-- 43_dct.md R197 (c): a slice of zeros, of either sign, gives coefficients +0 exactly, where the tensor's values are
finite. -/
def Obligations.ZeroBlockGivesZeroCoefficients : Prop :=
  ∀ (ch : Channel) (k : Nat) (s t : State), s.status.busy = true → exec (.dct ch k) s = .next t →
    (∀ n < s.bw * s.bh, ∃ neg, fp32 (s.elem32 (.sba ch) (k * (s.bw * s.bh) + n)) = .fin neg 0) →
    (∀ n < (s.bw * s.bh) ^ 2, finite64 (t.elem .phi n) = true) →
    ∀ n < s.bw * s.bh, t.elem .coef n = 0

/-- 43_dct.md R190, 00_scope.md R6: the model's default instance of BASIS1D is within 2^-52 of the real basis for every length a
block can have; every other instance is within that bound and 2^-60 (the model's check has a small error of its own, log 5). -/
def Obligations.DefaultBasisIsAdmissible : Prop :=
  ∀ d : Nat, 1 ≤ d → d ≤ 32768 →
    BasisAdmissible .correctlyRounded d ∧
    ∀ n, ∀ i < d, ∀ k < d, |((ratOfF64 (basis1d (.other n) d i k) : ℚ) : ℝ) - basisReal d i k| ≤ 1 / 2 ^ 52 + 1 / 2 ^ 60

/-- 44_svd.md R211 (P1 to P4) for what SVD leaves in the machine: either no valid factors, or, for a finite matrix, singular
values finite, non-negative and non-increasing, orthonormal factors, and the reconstruction within 1e-10. -/
def Obligations.SvdLeavesAdmissibleFactors : Prop :=
  ∀ s : State, s.status.busy = true → ∃ t, exec .svd s = .next t ∧
    (t.status.svdValid = false ∨
      let r := min s.bw s.bh
      let sv := fun i => ratOfF64 (t.elem .sval i)
      let u := fun a i => ratOfF64 (t.elem .svdu (a * r + i))
      let v := fun b i => ratOfF64 (t.elem .svdv (b * r + i))
      ((∀ n < s.bw * s.bh, finite64 (s.elem .coef n) = true) →
        (∀ i < r, finite64 (t.elem .sval i) = true ∧ 0 ≤ sv i) ∧
        (∀ i, i + 1 < r → sv (i + 1) ≤ sv i) ∧
        (∀ i < r, ∀ j < r,
          |(Finset.range s.bh).sum (fun a => u a i * u a j) - (if i = j then 1 else 0)| ≤ 1 / 10 ^ 10 ∧
          |(Finset.range s.bw).sum (fun b => v b i * v b j) - (if i = j then 1 else 0)| ≤ 1 / 10 ^ 10) ∧
        ((∀ n < s.bw * s.bh, |ratOfF64 (s.elem .coef n)| ≤ 16384) → ∀ a < s.bh, ∀ b < s.bw,
          |(Finset.range r).sum (fun i => u a i * sv i * v b i) - ratOfF64 (s.elem .coef (a * s.bw + b))| ≤ 1 / 10 ^ 10)))

/-- 42_dwt.md R179, first sentence in the engine's terms, for DWT then IDWT with the same m: each finite sample comes back to
within 1e-2 relative, or 1e-5 absolute below 1e-4. EXPECTED TO FAIL: a small sample beside large ones loses its digits. -/
def Obligations.WaveletRoundTripWithinTolerance : Prop :=
  ∀ (ch : Channel) (m : Bool) (s t u : State), s.status.busy = true → s.imgOk = true → (m = true → MapLoaded s) →
    (∀ i < s.width * s.height, ∃ neg v, fp32 (s.elem32 (.chan ch) i) = .fin neg v ∧ v < 2 ^ 270) →
    exec (.dwt ch m) s = .next t → exec (.idwt ch m) (latched (encode (.idwt ch m)) t) = .next u →
    ∀ i < s.width * s.height,
      let x := ratOfF64 (f64OfF32 (s.elem32 (.chan ch) i))
      let x' := ratOfF64 (f64OfF32 (u.elem32 (.chan ch) i))
      |x' - x| < 1 / 10 ^ 2 * |x| ∨ (|x| < 1 / 10 ^ 4 ∧ |x' - x| < 1 / 10 ^ 5)

/-! ### Floating-point arithmetic -/

/-- 00_scope.md R10, R14: the one rounding of every operation is to nearest, ties to even; from half a last place above the
largest finite value on it is infinity. -/
def Obligations.RoundingIsToNearestEven : Prop :=
  ∀ F ∈ [binary32, binary64], ∀ num den : Nat, 0 < den →
    (roundUnits F num den < infBits F → ∀ p < infBits F,
      distance (magnitudeUnits F (roundUnits F num den) * den) num ≤ distance (magnitudeUnits F p * den) num ∧
      (distance (magnitudeUnits F (roundUnits F num den) * den) num = distance (magnitudeUnits F p * den) num →
        p ≠ roundUnits F num den → roundUnits F num den % 2 = 0)) ∧
    (roundUnits F num den = infBits F ↔ (2 ^ (F.fracBits + 2) - 1) * 2 ^ (2 ^ F.expBits - 4) * den ≤ num)

/-- 00_scope.md R10: `f64(v)` widens exactly, and rounding back gives the value again. -/
def Obligations.WideningIsExact : Prop :=
  ∀ v : Word32,
    (∀ neg m, fp32 v = .fin neg m → fp64 (f64OfF32 v) = .fin neg (m * 2 ^ 925)) ∧
    (∀ neg, fp32 v = .inf neg → fp64 (f64OfF32 v) = .inf neg) ∧
    (fp32 v ≠ .nan → f32OfF64 (f64OfF32 v) = v)

/-- 00_scope.md R15: a NaN operand or an invalid operation gives a quiet NaN, in every operation of the data path: sums of
opposite infinities, differences of equal ones, 0 * inf, and for the division inf / inf and 0 / 0. -/
def Obligations.InvalidOperationsGiveQuietNan : Prop :=
  (∀ a b : Word32, fp32 a = .nan ∨ fp32 b = .nan → ∀ op ∈ [add32, sub32, mul32, div32], IsQuietNan32 (op a b)) ∧
  (∀ a b : Word64, fp64 a = .nan ∨ fp64 b = .nan → ∀ op ∈ [add64, mul64], IsQuietNan64 (op a b)) ∧
  (∀ (a b : Word32) (p q : Bool), fp32 a = .inf p → fp32 b = .inf q →
    (if p = q then fp32 (add32 a b) = .inf p else IsQuietNan32 (add32 a b)) ∧
    (if p = q then IsQuietNan32 (sub32 a b) else fp32 (sub32 a b) = .inf p) ∧ IsQuietNan32 (div32 a b)) ∧
  (∀ (a b : Word64) (p q : Bool), fp64 a = .inf p → fp64 b = .inf q →
    if p = q then fp64 (add64 a b) = .inf p else IsQuietNan64 (add64 a b)) ∧
  (∀ (a b : Word32) (p q : Bool), fp32 a = .inf p → fp32 b = .fin q 0 →
    IsQuietNan32 (mul32 a b) ∧ IsQuietNan32 (mul32 b a)) ∧
  (∀ (a b : Word64) (p q : Bool), fp64 a = .inf p → fp64 b = .fin q 0 →
    IsQuietNan64 (mul64 a b) ∧ IsQuietNan64 (mul64 b a)) ∧
  (∀ (a b : Word32) (p q : Bool), fp32 a = .fin p 0 → fp32 b = .fin q 0 → IsQuietNan32 (div32 a b)) ∧
  (∀ v : Word32, fp32 v = .nan → IsQuietNan64 (f64OfF32 v)) ∧
  (∀ v : Word64, fp64 v = .nan → IsQuietNan32 (f32OfF64 v))

/-! ### The host's accesses -/

/-- 20_memory.md R82, R90: a read of a register other than BUFDATA returns its value, BUSY or not, and changes nothing; the
fields stand where 10_state.md R35 to R42, R46 to R49 and R51 put them, with the codes of 60_exceptions.md R251 and R261, and
every other bit reads 0. BLKSHAPE, WAVEDIM and TOTBLK are in DerivedRegistersRead. -/
def Obligations.RegisterReadsHaveNoSideEffect : Prop :=
  (∀ s : State,
    let f := s.status
    let bit := fun (n : Nat) (b : Bool) => if b then 2 ^ n else 0
    let faultNumber := fun (c : Option CmdFault) => match c with
      | none => 0
      | some .illegalCmd => 1
      | some .badImg => 2
      | some .badShape => 3
      | some .noMap => 4
      | some .blkRange => 5
      | some .noDct => 6
      | some .noSvd => 7
    let errorNumber := fun (c : Option AccError) => match c with
      | none => 0
      | some .busy => 1
      | some .indexRange => 2
      | some .badSelect => 3
      | some .readOnly => 4
      | some .badAccess => 5
      | some .faultPending => 6
    readReg s .id = 0x00000100574D5A54 ∧
    (readReg s .cap).toNat = s.cap.maxPix.toNat + 2 ^ 32 * s.cap.bMax.toNat ∧
    (readReg s .ctrl).toNat = bit 1 s.ctrl.ieDone + bit 2 s.ctrl.ieFault ∧
    (readReg s .status).toNat =
      bit 0 f.busy + bit 1 f.done + bit 2 f.fault + bit 3 f.svdFail + bit 4 f.accErr + bit 8 f.mapValid + bit 9 f.phiValid +
        bit 10 f.dctValid + bit 11 f.svdValid ∧
    (readReg s .faultInfo).toNat = faultNumber s.faultInfo.code + 2 ^ 32 * s.faultInfo.cmdWord.toNat ∧
    readReg s .cmd = 0 ∧
    (readReg s .imgDim).toNat = s.imgDim.w.toNat + 2 ^ 16 * s.imgDim.h.toNat ∧
    (readReg s .blkReq).toNat = s.blkReq.w.toNat + 2 ^ 16 * s.blkReq.h.toNat ∧
    (readReg s .dctCtx).toNat = channelNumber s.dctCtx.ch + 2 ^ 8 * s.dctCtx.k.toNat ∧
    (readReg s .phiShape).toNat = s.phiShape.w.toNat + 2 ^ 16 * s.phiShape.h.toNat ∧
    (readReg s .bufSel).toNat = s.bufSel.buf.toNat + 2 ^ 4 * s.bufSel.ch.toNat ∧
    (readReg s .bufIdx).toNat = s.bufIdx.toNat ∧
    (readReg s .accInfo).toNat = errorNumber s.accInfo) ∧
  ∀ (s : State) (rest : List Event) (off : BitVec 8) (r : Reg), regAt off = some r → r ≠ .bufData →
    s.events = .read off 64 :: rest → step s = .next { s with events := rest, hostData := readReg s r }

/-- 20_memory.md R85, 10_state.md R52: an access that is not 64 bits wide at a multiple of 8, or that falls at an offset from 0x88
on, where no register is, is refused whole, with code 5. -/
def Obligations.MisalignedAccessesAreRefused : Prop :=
  ∀ (s : State) (rest : List Event) (off : BitVec 8) (bits : Nat), bits ≠ 64 ∨ off.toNat % 8 ≠ 0 ∨ 0x88 ≤ off.toNat →
    (s.events = .read off bits :: rest →
      step s = .next { accessRefused .badAccess { s with events := rest } with hostData := 0 }) ∧
    ∀ v, s.events = .write off bits v :: rest → step s = .next (accessRefused .badAccess { s with events := rest })

/-- 20_memory.md R86, R87: which selections are legal, which buffer and bank they name (`bufCode`: the buffer's number, and 16
times the bank's), and what a read of BUFDATA does in every case; the element is in the low bits, the rest 0. -/
def Obligations.BufferPortReads : Prop :=
  (∀ sel : BufSel, selectBuf sel = none ↔ 12 ≤ sel.buf.toNat ∨ (3 ≤ sel.buf.toNat ∧ sel.buf.toNat ≤ 7 ∧ sel.ch.toNat = 3)) ∧
  (∀ (sel : BufSel) (b : Buf), selectBuf sel = some b →
    bufCode b = sel.buf.toNat + (if 3 ≤ sel.buf.toNat ∧ sel.buf.toNat ≤ 7 then 16 * sel.ch.toNat else 0)) ∧
  ∀ (s : State) (rest : List Event), s.events = .read 0x78 64 :: rest →
    let t := { s with events := rest }
    let refused := fun c => Host.Outcome.next { accessRefused c t with hostData := 0 }
    (s.status.busy = true → step s = refused .busy) ∧
    (s.status.busy = false → selectBuf s.bufSel = none → step s = refused .badSelect) ∧
    ∀ b, s.status.busy = false → selectBuf s.bufSel = some b →
      (s.capacity b ≤ s.bufIdx.toNat → step s = refused .indexRange) ∧
      (s.bufIdx.toNat < s.capacity b →
        (s.elem b s.bufIdx.toNat).toNat < 2 ^ elemBits b ∧
        step s = .next { t with hostData := s.elem b s.bufIdx.toNat, bufIdx := s.bufIdx + 1 })

/-- 20_memory.md R89: what a write of BUFDATA does in every case. -/
def Obligations.BufferPortWrites : Prop :=
  ∀ (s : State) (rest : List Event) (v : Word64), s.events = .write 0x78 64 v :: rest →
    let t := { s with events := rest }
    (s.status.busy = true → step s = .next (accessRefused .busy t)) ∧
    (s.status.busy = false → selectBuf s.bufSel = none → step s = .next (accessRefused .badSelect t)) ∧
    ∀ b, s.status.busy = false → selectBuf s.bufSel = some b →
      (b = .bmap ∨ b = .phi → step s = .next (accessRefused .readOnly t)) ∧
      (b ≠ .bmap → b ≠ .phi → s.capacity b ≤ s.bufIdx.toNat → step s = .next (accessRefused .indexRange t)) ∧
      (b ≠ .bmap → b ≠ .phi → s.bufIdx.toNat < s.capacity b →
        ∃ u, step s = .next u ∧ u.elem b s.bufIdx.toNat = packElem b v ∧
          (∀ b' i, b' ≠ b ∨ i ≠ s.bufIdx.toNat → u.elem b' i = s.elem b' i) ∧
          u = { t.setBuf b (u.buf b) with bufIdx := s.bufIdx + 1 })

/-- 20_memory.md R88, R89: a value written through the port, its index written again, is read back in the buffer's packing. -/
def Obligations.PortWriteReadsBack : Prop :=
  ∀ (s : State) (b : Buf) (v w : Word64), s.status.busy = false → selectBuf s.bufSel = some b → b ≠ .bmap → b ≠ .phi →
    s.bufIdx.toNat < s.capacity b → w.extractLsb' 0 32 = s.bufIdx →
    s.events = [.write 0x78 64 v, .write 0x70 64 w, .read 0x78 64] →
    ∃ t, Sys2Proof.core.run 3 s = .next t ∧ t.hostData = packElem b v ∧ t.bufIdx = s.bufIdx + 1 ∧ t.status = s.status

/-- 10_state.md R41, R42: both registers are 0 after reset; a write of IMGDIM or BLKREQ, of whatever value, stores it in the two
fields, reads back, and clears the three valid flags; while BUSY it is refused. The same of BUFSEL and BUFIDX (R48, R49), whose
write stores and changes nothing else. -/
def Obligations.GeometryWritesClearValidFlags : Prop :=
  readReg State.reset .imgDim = 0 ∧ readReg State.reset .blkReq = 0 ∧ readReg State.reset .bufSel = 0 ∧
  readReg State.reset .bufIdx = 0 ∧
  (∀ (s : State) (rest : List Event) (v : Word64), ∀ r ∈ [(0x68#8, Reg.bufSel), (0x70#8, Reg.bufIdx)],
    s.events = .write r.1 64 v :: rest →
    (s.status.busy = true → step s = .next (accessRefused .busy { s with events := rest })) ∧
    (s.status.busy = false → ∃ t, step s = .next t ∧
      (r.2 = .bufSel → t.bufSel.buf.toNat = v.toNat % 2 ^ 4 ∧ t.bufSel.ch.toNat = v.toNat / 2 ^ 4 % 2 ^ 2 ∧
        (readReg t .bufSel).toNat = v.toNat % 2 ^ 6) ∧
      (r.2 = .bufIdx → t.bufIdx.toNat = v.toNat % 2 ^ 32 ∧ (readReg t .bufIdx).toNat = v.toNat % 2 ^ 32) ∧
      t = { s with
        events := rest
        bufSel := if r.2 = .bufSel then t.bufSel else s.bufSel
        bufIdx := if r.2 = .bufIdx then t.bufIdx else s.bufIdx })) ∧
  ∀ (s : State) (rest : List Event) (v : Word64), ∀ r ∈ [(0x30#8, Reg.imgDim), (0x38#8, Reg.blkReq)],
    s.events = .write r.1 64 v :: rest →
    (s.status.busy = true → step s = .next (accessRefused .busy { s with events := rest })) ∧
    (s.status.busy = false → ∃ t, step s = .next t ∧ (readReg t r.2).toNat = v.toNat % 2 ^ 32 ∧
      (r.2 = .imgDim → t.width = v.toNat % 2 ^ 16 ∧ t.height = v.toNat / 2 ^ 16 % 2 ^ 16) ∧
      (r.2 = .blkReq → t.blkReq.w.toNat = v.toNat % 2 ^ 16 ∧ t.blkReq.h.toNat = v.toNat / 2 ^ 16 % 2 ^ 16) ∧
      t = { s with
        events := rest
        imgDim := if r.2 = .imgDim then t.imgDim else s.imgDim
        blkReq := if r.2 = .blkReq then t.blkReq else s.blkReq
        status := { s.status with mapValid := false, dctValid := false, svdValid := false } })

/-- 20_memory.md R91, 60_exceptions.md R261: while a command is in flight the closed accesses are refused with code 1 and no
other effect. -/
def Obligations.BusyEngineRefusesAccesses : Prop :=
  ∀ (s : State) (rest : List Event), s.status.busy = true →
    (∀ off ∈ [0x28#8, 0x30, 0x38, 0x68, 0x70, 0x78], ∀ v, s.events = .write off 64 v :: rest →
      step s = .next (accessRefused .busy { s with events := rest })) ∧
    (s.events = .read 0x78 64 :: rest →
      step s = .next { accessRefused .busy { s with events := rest } with hostData := 0 })

/-- 60_exceptions.md R262: an access error is sticky, the first code wins, it is cleared with ACCINFO by bit 4 of a STATUS
write, and it changes nothing else, the interrupt line included. -/
def Obligations.FirstAccessErrorIsKept : Prop :=
  ∀ (s : State) (c d : AccError),
    flagAccErr c s = accessRefused c s ∧ flagAccErr d (flagAccErr c s) = flagAccErr c s ∧
    (flagAccErr c s).irq = s.irq ∧ (flagAccErr c s).status.busy = s.status.busy ∧
    (s.status.accErr = false → (flagAccErr c s).accInfo = some c) ∧
    ∀ v : Word64, v.getLsbD 4 = true →
      (writeStatus v (flagAccErr c s)).status.accErr = false ∧ (writeStatus v (flagAccErr c s)).accInfo = none

/-- 60_exceptions.md R259, 10_state.md R37: the interrupt line, and that enabling a source whose bit is set raises it at
once. -/
def Obligations.InterruptLineFollowsEnables : Prop :=
  ∀ (s : State) (rest : List Event) (v : Word64), s.events = .write 0x10 64 v :: rest → v.getLsbD 0 = false →
    ∃ t, step s = .next t ∧ t = { s with events := rest, ctrl := { ieDone := v.getLsbD 1, ieFault := v.getLsbD 2 } } ∧
      (t.irq = true ↔ (s.status.done = true ∧ v.getLsbD 1 = true) ∨ (s.status.fault = true ∧ v.getLsbD 2 = true))

/-! ### Reset -/

/-- 70_reset_and_hazards.md R291, R292: a soft reset resets every register and keeps every element outside the write set of a
command in flight; the elements of that write set become unspecified, which the model says by fresh free values (log 8).
CURCMD = 0 afterwards is the model's choice (log 11). -/
def Obligations.SoftResetKeepsBuffers : Prop :=
  ∀ (s : State) (rest : List Event) (v : Word64), Memory.wf s = true → s.events = .write 0x10 64 v :: rest →
    v.getLsbD 0 = true →
    ∃ t, step s = .next t ∧
      t.ctrl = State.reset.ctrl ∧ t.status = State.reset.status ∧ t.faultInfo = State.reset.faultInfo ∧
      t.accInfo = State.reset.accInfo ∧ t.imgDim = State.reset.imgDim ∧ t.blkReq = State.reset.blkReq ∧
      t.dctCtx = State.reset.dctCtx ∧ t.phiShape = State.reset.phiShape ∧ t.bufSel = State.reset.bufSel ∧
      t.bufIdx = State.reset.bufIdx ∧ t.cap = s.cap ∧ t.basis = s.basis ∧ t.hostData = s.hostData ∧ t.events = rest ∧
      (s.status.busy = false → ∀ b, t.buf b = s.buf b) ∧
      ∀ b i, if s.status.busy = true ∧ ∃ p ∈ inFlightWrites s, p.buf = b ∧ p.base ≤ i ∧ i < p.base + p.count
        then t.elem b i = packElem b (Config.freeElem s.freeCount (bufCode b) i)
        else t.elem b i = s.elem b i

/-- 70_reset_and_hazards.md R290, 10_state.md R68: a hardware reset leaves the reset state, at any moment, and what the host
reads of the registers then. The parameters are not state; every element is unspecified anew (log 7); CURCMD = 0 and the
host's side are the model's choice (logs 2, 11, 12), and what CAP (R36) reads is that of the default parameters (log 4). -/
def Obligations.HardResetLeavesResetState : Prop :=
  (∀ (s : State) (rest : List Event), s.events = .hardReset :: rest →
    step s = .next { State.reset with
      cap := s.cap, basis := s.basis, unwrittenSeed := s.freeCount, freeCount := s.freeCount + 1, hostData := s.hostData,
      events := rest }) ∧
  (∀ r ∈ [Reg.ctrl, .status, .faultInfo, .cmd, .imgDim, .blkReq, .waveDim, .totBlk, .dctCtx, .phiShape, .bufSel, .bufIdx,
      .accInfo], readReg State.reset r = 0) ∧
  readReg State.reset .id = 0x00000100574D5A54 ∧ readReg State.reset .cap = 0x0000001000400000 ∧
  readReg State.reset .blkShape = 0x0000000000040004 ∧ State.reset.irq = false

/-! ### Invariants -/

/-- 10_state.md R68: the control invariant, the map and the tensor hold after reset. So does the memory's canonical form, which is
the model's own (log 13), and so do the ranges of the default parameters (00_scope.md R6, log 4). -/
def Obligations.ResetStateIsSound : Prop :=
  ControlSound State.reset ∧ MapSound State.reset ∧ TensorSound State.reset ∧ Memory.wf State.reset = true ∧
  ParametersLegal State.reset

/-- 60_exceptions.md R259 (DONE and FAULT are never both set), 10_state.md R51, 20_memory.md R94, 30_encoding.md R117, 43_dct.md
R194: every step keeps the control invariant. -/
def Obligations.StepKeepsControlSound : Prop :=
  ∀ s t : State, ControlSound s → step s = .next t → ControlSound t

/-- Every step keeps the memory's canonical form, which is the model's own and no rule of the spec (log 13): indices strictly
rising, no entry equal to what an unlisted index holds. -/
def Obligations.StepKeepsMemoryCanonical : Prop :=
  ∀ s t : State, Memory.wf s = true → step s = .next t → Memory.wf t = true

/-- 10_state.md R59, 92_eei_decisions.md D34: every step keeps BMAP the pure function of the geometry while MAP_VALID = 1. -/
def Obligations.StepKeepsMapSound : Prop :=
  ∀ s t : State, MapSound s → step s = .next t → MapSound t

/-- 10_state.md R62, 92_eei_decisions.md D34: every step keeps PHI the pure function of PHISHAPE while PHI_VALID = 1. -/
def Obligations.StepKeepsTensorSound : Prop :=
  ∀ s t : State, TensorSound s → step s = .next t → TensorSound t

/-- 93_implementation_defined.md part 1, last sentence, and 60_exceptions.md R254: from a sound state the machine never stops,
whatever the host does: every run of any length reaches a next state, and it is sound. -/
def Obligations.EngineNeverStops : Prop :=
  ∀ s : State, ControlSound s → ∀ n, ∃ t, Sys2Proof.core.run n s = .next t ∧ ControlSound t

/-- 10_state.md R30, 00_scope.md R6: the implementation parameters never change, so they stay in their ranges. -/
def Obligations.ParametersNeverChange : Prop :=
  ∀ s t : State, step s = .next t → t.cap = s.cap ∧ t.basis = s.basis ∧ (ParametersLegal s → ParametersLegal t)

/-- 20_memory.md R99: what a command in flight writes is inside its write set, and so inside the buffers' capacities: every other
element reads as before. The room of BMAX^2 for the hidden factors is the model's (log 21). -/
def Obligations.AcceptedWritesStayInCapacity : Prop :=
  (∀ (s : State) (i : Instr), GeometryBound s → firstFault (acceptChecks s i) = none →
    ∀ p ∈ writeSet s i, p.base + p.count ≤ s.capacity p.buf) ∧
  ∀ (s t : State) (i : Instr), ControlSound s → MapSound s → s.status.busy = true → decode s.curCmd = .ok i →
    exec i s = .next t →
    (∀ b n, s.capacity b ≤ n → t.elem b n = s.elem b n) ∧
    ∀ b n, (∀ p ∈ writeSet s i, p.buf = b → n < p.base ∨ p.base + p.count ≤ n) → t.elem b n = s.elem b n
end

