-- ==== Sys2Proof/Laws/Basis.lean ====
section
/-! SUPPORT. The basis generator: what Newton's square root keeps, and which values an instance of `BASIS1D` can take. -/

namespace Sys2Proof.Machine

/-- A Newton step from a positive start stays above the square root. -/
theorem newton_step_above (n : Nat) {x : Nat} (hx : 0 < x) : n < ((x + n / x) / 2 + 1) ^ 2 := by
  have hq : n < x * (n / x + 1) := by
    have := Nat.lt_mul_div_succ n hx
    simpa using this
  have hm : x + n / x + 1 ≤ 2 * ((x + n / x) / 2 + 1) := by omega
  nlinarith [Nat.mul_le_mul hm hm, sq_nonneg ((x : ℤ) - n / x - 1)]

/-- Newton's steps stay above the square root, whatever the fuel. -/
theorem sqrtFrom_above (n fuel : Nat) : ∀ {x : Nat}, n < (x + 1) ^ 2 → n < (sqrtFrom n fuel x + 1) ^ 2 := by
  induction fuel with
  | zero => exact fun h => h
  | succ fuel ih =>
    intro x h
    simp only [sqrtFrom]
    split
    · rename_i hlt
      exact ih (newton_step_above n (Nat.pos_of_ne_zero (by rintro rfl; omega)))
    · exact h

/-- Where a step no longer falls, the square root is reached from below as well. -/
theorem newton_stop_below {n x : Nat} (h : x ≤ (x + n / x) / 2) : x ^ 2 ≤ n := by
  have hx : x ≤ n / x := by omega
  calc x ^ 2 = x * x := sq x
    _ ≤ x * (n / x) := Nat.mul_le_mul_left x hx
    _ ≤ n := Nat.mul_div_le n x

/-- A value of an instance of `BASIS1D` is the default, or an admissible one of the instance. -/
theorem basis1d_cases (rom : BasisRom) (d i k : Nat) :
    basis1d rom d i k = basisDefault d i k ∨ basisAdmits d i k (basis1d rom d i k) = true := by
  cases rom with
  | correctlyRounded => exact .inl rfl
  | other n =>
    by_cases h : basisAdmits d i k (Config.freeBasis n d i k) = true
    · exact .inr (by simp [basis1d, h])
    · exact .inl (by simp [basis1d, h])

/-- An admissible value is finite. -/
theorem finite_of_basisAdmits {d i k : Nat} {v : Word64} (h : basisAdmits d i k v = true) : ∃ neg m, fp64 v = .fin neg m := by
  unfold basisAdmits at h
  cases e : fp64 v with
  | fin neg m => exact ⟨neg, m, rfl⟩
  | _ => simp [e] at h

end Sys2Proof.Machine
end

