-- ==== Sys2Proof/Laws/Float.lean ====
section
/-! SUPPORT. The laws of the arithmetic's shared operations: the formats' fields, packing and unpacking, NaN results, and the
error of one rounding. -/

namespace Sys2Proof.Machine

@[simp] theorem binary32_fracBits : binary32.fracBits = 23 := rfl
@[simp] theorem binary32_expBits : binary32.expBits = 8 := rfl
@[simp] theorem binary32_unitExp : binary32.unitExp = 149 := rfl
@[simp] theorem binary64_fracBits : binary64.fracBits = 52 := rfl
@[simp] theorem binary64_expBits : binary64.expBits = 11 := rfl
@[simp] theorem binary64_unitExp : binary64.unitExp = 1074 := rfl

/-- A magnitude below infinity's, with its sign, reads back as that many units. -/
theorem unpackFp_packSign (F : Format) (neg : Bool) {p : Nat} (hp : p < infBits F) :
    unpackFp F (packSign F neg p) = .fin neg (unitsOf F (p / 2 ^ F.fracBits) (p % 2 ^ F.fracBits)) := by
  have hF : 0 < 2 ^ F.fracBits := by positivity
  have hE : 0 < 2 ^ F.expBits := by positivity
  have hw : signWeight F = 2 ^ F.fracBits * 2 ^ F.expBits := by simp [signWeight, pow_add]
  have hlt : p < 2 ^ F.fracBits * (2 ^ F.expBits - 1) := by rw [mul_comm]; exact hp
  have he : p / 2 ^ F.fracBits < 2 ^ F.expBits - 1 := Nat.div_lt_of_lt_mul hlt
  have hsw : p < signWeight F := by
    rw [hw]
    exact lt_of_lt_of_le hlt (Nat.mul_le_mul_left _ (Nat.sub_le _ _))
  have hs : 0 < signWeight F := by omega
  cases neg with
  | false =>
    have h0 : p / signWeight F = 0 := Nat.div_eq_of_lt hsw
    have hm : p / 2 ^ F.fracBits % 2 ^ F.expBits = p / 2 ^ F.fracBits := Nat.mod_eq_of_lt (by omega)
    simp only [unpackFp, packSign, Bool.false_eq_true, if_false, hm, h0]
    rw [if_neg (by omega)]
    simp
  | true =>
    have h1 : (signWeight F + p) / signWeight F = 1 := by
      rw [Nat.add_div_left _ hs, Nat.div_eq_of_lt hsw]
    have hd : (signWeight F + p) / 2 ^ F.fracBits = 2 ^ F.expBits + p / 2 ^ F.fracBits := by
      rw [hw, Nat.mul_add_div hF]
    have hm : (2 ^ F.expBits + p / 2 ^ F.fracBits) % 2 ^ F.expBits = p / 2 ^ F.fracBits := by
      rw [Nat.add_mod_left, Nat.mod_eq_of_lt (by omega)]
    have hf : (signWeight F + p) % 2 ^ F.fracBits = p % 2 ^ F.fracBits := by
      rw [hw, Nat.mul_add_mod]
    simp only [unpackFp, packSign, if_true, hd, hm, hf, h1]
    rw [if_neg (by omega)]
    simp

/-- The rounded magnitude is at most infinity's pattern. -/
theorem roundUnits_le (F : Format) (num den : Nat) : roundUnits F num den ≤ infBits F := Nat.min_le_left _ _

/-- Rounding to an integer errs by at most a half. -/
theorem roundHalfEven_error (num : Nat) {den : Nat} (h : 0 < den) :
    2 * num ≤ 2 * (roundHalfEven num den * den) + den ∧ 2 * (roundHalfEven num den * den) ≤ 2 * num + den := by
  have hq : den * (num / den) + num % den = num := Nat.div_add_mod num den
  have hr : num % den < den := Nat.mod_lt _ h
  unfold roundHalfEven
  simp only
  split_ifs with hc
  · rw [Nat.add_mul, one_mul, mul_comm (num / den) den]
    omega
  · rw [mul_comm (num / den) den]
    omega

/-- A binary32 result that is not a NaN is its pattern. -/
theorem toNat_result32 (op : FpOp) (a b : Word64) {bits : Nat} (h : bits < 2 ^ 32) :
    (result32 op a b (some bits)).toNat = bits := by
  simp only [result32, BitVec.toNat_ofNat]
  exact Nat.mod_eq_of_lt h

/-- A binary64 result that is not a NaN is its pattern. -/
theorem toNat_result64 (op : FpOp) (a b : Word64) {bits : Nat} (h : bits < 2 ^ 64) :
    (result64 op a b (some bits)).toNat = bits := by
  simp only [result64, BitVec.toNat_ofNat]
  exact Nat.mod_eq_of_lt h

/-- A binary32 NaN result is a NaN. -/
theorem fp32_quietNan32 (v : Word32) : fp32 (quietNan32 v) = .nan := by
  have e : (quietNan32 v).toNat / 2 ^ binary32.fracBits % 2 ^ binary32.expBits = 2 ^ binary32.expBits - 1 := by
    have : (quietNan32 v).extractLsb' 23 8 = 255#8 := by
      ext i hi
      interval_cases i <;> simp [quietNan32]
    simpa [BitVec.extractLsb'_toNat, Nat.shiftRight_eq_div_pow] using congrArg BitVec.toNat this
  have f : (quietNan32 v).toNat % 2 ^ binary32.fracBits ≠ 0 := by
    intro h
    have hz : (quietNan32 v).extractLsb' 0 23 = 0#23 := by
      apply BitVec.eq_of_toNat_eq
      simpa [BitVec.extractLsb'_toNat] using h
    have hb := congrArg (fun b => b.getLsbD 22) hz
    simp [quietNan32] at hb
  simp only [fp32, unpackFp]
  rw [if_pos e, if_neg f]

/-- A binary64 NaN result is a NaN. -/
theorem fp64_quietNan64 (v : Word64) : fp64 (quietNan64 v) = .nan := by
  have e : (quietNan64 v).toNat / 2 ^ binary64.fracBits % 2 ^ binary64.expBits = 2 ^ binary64.expBits - 1 := by
    have : (quietNan64 v).extractLsb' 52 11 = 2047#11 := by
      ext i hi
      interval_cases i <;> simp [quietNan64]
    simpa [BitVec.extractLsb'_toNat, Nat.shiftRight_eq_div_pow] using congrArg BitVec.toNat this
  have f : (quietNan64 v).toNat % 2 ^ binary64.fracBits ≠ 0 := by
    intro h
    have hz : (quietNan64 v).extractLsb' 0 52 = 0#52 := by
      apply BitVec.eq_of_toNat_eq
      simpa [BitVec.extractLsb'_toNat] using h
    have hb := congrArg (fun b => b.getLsbD 51) hz
    simp [quietNan64] at hb
  simp only [fp64, unpackFp]
  rw [if_pos e, if_neg f]

end Sys2Proof.Machine
end

