-- ==== Sys2Proof/Laws/State.lean ====
section
/-! SUPPORT. One lemma per field per update of State: what the named updates leave of each field and of each buffer. -/

namespace Sys2Proof.Machine

@[simp] theorem Banks.get_set_same (b : Banks) (c : Channel) (m : Buffer) : (b.set c m).get c = m := by cases c <;> rfl

theorem Banks.get_set_other (b : Banks) {c c' : Channel} (m : Buffer) (h : c' ≠ c) : (b.set c m).get c' = b.get c' := by
  cases c <;> cases c' <;> first | rfl | exact absurd rfl h

@[simp] theorem State.buf_setBuf_same (s : State) (b : Buf) (m : Buffer) : (s.setBuf b m).buf b = m := by
  cases b <;> first | rfl | exact Banks.get_set_same _ _ _

theorem State.buf_setBuf_other (s : State) {b b' : Buf} (m : Buffer) (h : b' ≠ b) : (s.setBuf b m).buf b' = s.buf b' := by
  cases b <;> cases b' <;>
    first
    | rfl
    | exact absurd rfl h
    | exact Banks.get_set_other _ _ (fun e => h (by rw [e]))

@[simp] theorem State.setBuf_cap (s : State) (b : Buf) (m : Buffer) : (s.setBuf b m).cap = s.cap := by cases b <;> rfl
@[simp] theorem State.setBuf_ctrl (s : State) (b : Buf) (m : Buffer) : (s.setBuf b m).ctrl = s.ctrl := by cases b <;> rfl
@[simp] theorem State.setBuf_status (s : State) (b : Buf) (m : Buffer) : (s.setBuf b m).status = s.status := by cases b <;> rfl
@[simp] theorem State.setBuf_faultInfo (s : State) (b : Buf) (m : Buffer) : (s.setBuf b m).faultInfo = s.faultInfo := by cases b <;> rfl
@[simp] theorem State.setBuf_accInfo (s : State) (b : Buf) (m : Buffer) : (s.setBuf b m).accInfo = s.accInfo := by cases b <;> rfl
@[simp] theorem State.setBuf_imgDim (s : State) (b : Buf) (m : Buffer) : (s.setBuf b m).imgDim = s.imgDim := by cases b <;> rfl
@[simp] theorem State.setBuf_blkReq (s : State) (b : Buf) (m : Buffer) : (s.setBuf b m).blkReq = s.blkReq := by cases b <;> rfl
@[simp] theorem State.setBuf_dctCtx (s : State) (b : Buf) (m : Buffer) : (s.setBuf b m).dctCtx = s.dctCtx := by cases b <;> rfl
@[simp] theorem State.setBuf_phiShape (s : State) (b : Buf) (m : Buffer) : (s.setBuf b m).phiShape = s.phiShape := by cases b <;> rfl
@[simp] theorem State.setBuf_bufSel (s : State) (b : Buf) (m : Buffer) : (s.setBuf b m).bufSel = s.bufSel := by cases b <;> rfl
@[simp] theorem State.setBuf_bufIdx (s : State) (b : Buf) (m : Buffer) : (s.setBuf b m).bufIdx = s.bufIdx := by cases b <;> rfl
@[simp] theorem State.setBuf_curCmd (s : State) (b : Buf) (m : Buffer) : (s.setBuf b m).curCmd = s.curCmd := by cases b <;> rfl
@[simp] theorem State.setBuf_basis (s : State) (b : Buf) (m : Buffer) : (s.setBuf b m).basis = s.basis := by cases b <;> rfl
@[simp] theorem State.setBuf_unwrittenSeed (s : State) (b : Buf) (m : Buffer) : (s.setBuf b m).unwrittenSeed = s.unwrittenSeed := by cases b <;> rfl
@[simp] theorem State.setBuf_freeCount (s : State) (b : Buf) (m : Buffer) : (s.setBuf b m).freeCount = s.freeCount := by cases b <;> rfl
@[simp] theorem State.setBuf_hostData (s : State) (b : Buf) (m : Buffer) : (s.setBuf b m).hostData = s.hostData := by cases b <;> rfl
@[simp] theorem State.setBuf_events (s : State) (b : Buf) (m : Buffer) : (s.setBuf b m).events = s.events := by cases b <;> rfl

@[simp] theorem State.scatter_cap (s : State) (b : Buf) (n : Nat) (idx : Nat → Nat) (el : Nat → Elem) :
    (s.scatter b n idx el).cap = s.cap := State.setBuf_cap _ _ _
@[simp] theorem State.scatter_ctrl (s : State) (b : Buf) (n : Nat) (idx : Nat → Nat) (el : Nat → Elem) :
    (s.scatter b n idx el).ctrl = s.ctrl := State.setBuf_ctrl _ _ _
@[simp] theorem State.scatter_status (s : State) (b : Buf) (n : Nat) (idx : Nat → Nat) (el : Nat → Elem) :
    (s.scatter b n idx el).status = s.status := State.setBuf_status _ _ _
@[simp] theorem State.scatter_faultInfo (s : State) (b : Buf) (n : Nat) (idx : Nat → Nat) (el : Nat → Elem) :
    (s.scatter b n idx el).faultInfo = s.faultInfo := State.setBuf_faultInfo _ _ _
@[simp] theorem State.scatter_accInfo (s : State) (b : Buf) (n : Nat) (idx : Nat → Nat) (el : Nat → Elem) :
    (s.scatter b n idx el).accInfo = s.accInfo := State.setBuf_accInfo _ _ _
@[simp] theorem State.scatter_imgDim (s : State) (b : Buf) (n : Nat) (idx : Nat → Nat) (el : Nat → Elem) :
    (s.scatter b n idx el).imgDim = s.imgDim := State.setBuf_imgDim _ _ _
@[simp] theorem State.scatter_blkReq (s : State) (b : Buf) (n : Nat) (idx : Nat → Nat) (el : Nat → Elem) :
    (s.scatter b n idx el).blkReq = s.blkReq := State.setBuf_blkReq _ _ _
@[simp] theorem State.scatter_dctCtx (s : State) (b : Buf) (n : Nat) (idx : Nat → Nat) (el : Nat → Elem) :
    (s.scatter b n idx el).dctCtx = s.dctCtx := State.setBuf_dctCtx _ _ _
@[simp] theorem State.scatter_phiShape (s : State) (b : Buf) (n : Nat) (idx : Nat → Nat) (el : Nat → Elem) :
    (s.scatter b n idx el).phiShape = s.phiShape := State.setBuf_phiShape _ _ _
@[simp] theorem State.scatter_bufSel (s : State) (b : Buf) (n : Nat) (idx : Nat → Nat) (el : Nat → Elem) :
    (s.scatter b n idx el).bufSel = s.bufSel := State.setBuf_bufSel _ _ _
@[simp] theorem State.scatter_bufIdx (s : State) (b : Buf) (n : Nat) (idx : Nat → Nat) (el : Nat → Elem) :
    (s.scatter b n idx el).bufIdx = s.bufIdx := State.setBuf_bufIdx _ _ _
@[simp] theorem State.scatter_curCmd (s : State) (b : Buf) (n : Nat) (idx : Nat → Nat) (el : Nat → Elem) :
    (s.scatter b n idx el).curCmd = s.curCmd := State.setBuf_curCmd _ _ _
@[simp] theorem State.scatter_basis (s : State) (b : Buf) (n : Nat) (idx : Nat → Nat) (el : Nat → Elem) :
    (s.scatter b n idx el).basis = s.basis := State.setBuf_basis _ _ _
@[simp] theorem State.scatter_unwrittenSeed (s : State) (b : Buf) (n : Nat) (idx : Nat → Nat) (el : Nat → Elem) :
    (s.scatter b n idx el).unwrittenSeed = s.unwrittenSeed := State.setBuf_unwrittenSeed _ _ _
@[simp] theorem State.scatter_freeCount (s : State) (b : Buf) (n : Nat) (idx : Nat → Nat) (el : Nat → Elem) :
    (s.scatter b n idx el).freeCount = s.freeCount := State.setBuf_freeCount _ _ _
@[simp] theorem State.scatter_hostData (s : State) (b : Buf) (n : Nat) (idx : Nat → Nat) (el : Nat → Elem) :
    (s.scatter b n idx el).hostData = s.hostData := State.setBuf_hostData _ _ _
@[simp] theorem State.scatter_events (s : State) (b : Buf) (n : Nat) (idx : Nat → Nat) (el : Nat → Elem) :
    (s.scatter b n idx el).events = s.events := State.setBuf_events _ _ _

@[simp] theorem State.writeAt_cap (s : State) (b : Buf) (n : Nat) (idx : Nat → Nat) (val : Nat → Word64) :
    (s.writeAt b n idx val).cap = s.cap := State.setBuf_cap _ _ _
@[simp] theorem State.writeAt_ctrl (s : State) (b : Buf) (n : Nat) (idx : Nat → Nat) (val : Nat → Word64) :
    (s.writeAt b n idx val).ctrl = s.ctrl := State.setBuf_ctrl _ _ _
@[simp] theorem State.writeAt_status (s : State) (b : Buf) (n : Nat) (idx : Nat → Nat) (val : Nat → Word64) :
    (s.writeAt b n idx val).status = s.status := State.setBuf_status _ _ _
@[simp] theorem State.writeAt_faultInfo (s : State) (b : Buf) (n : Nat) (idx : Nat → Nat) (val : Nat → Word64) :
    (s.writeAt b n idx val).faultInfo = s.faultInfo := State.setBuf_faultInfo _ _ _
@[simp] theorem State.writeAt_accInfo (s : State) (b : Buf) (n : Nat) (idx : Nat → Nat) (val : Nat → Word64) :
    (s.writeAt b n idx val).accInfo = s.accInfo := State.setBuf_accInfo _ _ _
@[simp] theorem State.writeAt_imgDim (s : State) (b : Buf) (n : Nat) (idx : Nat → Nat) (val : Nat → Word64) :
    (s.writeAt b n idx val).imgDim = s.imgDim := State.setBuf_imgDim _ _ _
@[simp] theorem State.writeAt_blkReq (s : State) (b : Buf) (n : Nat) (idx : Nat → Nat) (val : Nat → Word64) :
    (s.writeAt b n idx val).blkReq = s.blkReq := State.setBuf_blkReq _ _ _
@[simp] theorem State.writeAt_dctCtx (s : State) (b : Buf) (n : Nat) (idx : Nat → Nat) (val : Nat → Word64) :
    (s.writeAt b n idx val).dctCtx = s.dctCtx := State.setBuf_dctCtx _ _ _
@[simp] theorem State.writeAt_phiShape (s : State) (b : Buf) (n : Nat) (idx : Nat → Nat) (val : Nat → Word64) :
    (s.writeAt b n idx val).phiShape = s.phiShape := State.setBuf_phiShape _ _ _
@[simp] theorem State.writeAt_bufSel (s : State) (b : Buf) (n : Nat) (idx : Nat → Nat) (val : Nat → Word64) :
    (s.writeAt b n idx val).bufSel = s.bufSel := State.setBuf_bufSel _ _ _
@[simp] theorem State.writeAt_bufIdx (s : State) (b : Buf) (n : Nat) (idx : Nat → Nat) (val : Nat → Word64) :
    (s.writeAt b n idx val).bufIdx = s.bufIdx := State.setBuf_bufIdx _ _ _
@[simp] theorem State.writeAt_curCmd (s : State) (b : Buf) (n : Nat) (idx : Nat → Nat) (val : Nat → Word64) :
    (s.writeAt b n idx val).curCmd = s.curCmd := State.setBuf_curCmd _ _ _
@[simp] theorem State.writeAt_basis (s : State) (b : Buf) (n : Nat) (idx : Nat → Nat) (val : Nat → Word64) :
    (s.writeAt b n idx val).basis = s.basis := State.setBuf_basis _ _ _
@[simp] theorem State.writeAt_unwrittenSeed (s : State) (b : Buf) (n : Nat) (idx : Nat → Nat) (val : Nat → Word64) :
    (s.writeAt b n idx val).unwrittenSeed = s.unwrittenSeed := State.setBuf_unwrittenSeed _ _ _
@[simp] theorem State.writeAt_freeCount (s : State) (b : Buf) (n : Nat) (idx : Nat → Nat) (val : Nat → Word64) :
    (s.writeAt b n idx val).freeCount = s.freeCount := State.setBuf_freeCount _ _ _
@[simp] theorem State.writeAt_hostData (s : State) (b : Buf) (n : Nat) (idx : Nat → Nat) (val : Nat → Word64) :
    (s.writeAt b n idx val).hostData = s.hostData := State.setBuf_hostData _ _ _
@[simp] theorem State.writeAt_events (s : State) (b : Buf) (n : Nat) (idx : Nat → Nat) (val : Nat → Word64) :
    (s.writeAt b n idx val).events = s.events := State.setBuf_events _ _ _

@[simp] theorem State.writeFrom_cap (s : State) (b : Buf) (base n : Nat) (val : Nat → Word64) :
    (s.writeFrom b base n val).cap = s.cap := State.setBuf_cap _ _ _
@[simp] theorem State.writeFrom_ctrl (s : State) (b : Buf) (base n : Nat) (val : Nat → Word64) :
    (s.writeFrom b base n val).ctrl = s.ctrl := State.setBuf_ctrl _ _ _
@[simp] theorem State.writeFrom_status (s : State) (b : Buf) (base n : Nat) (val : Nat → Word64) :
    (s.writeFrom b base n val).status = s.status := State.setBuf_status _ _ _
@[simp] theorem State.writeFrom_faultInfo (s : State) (b : Buf) (base n : Nat) (val : Nat → Word64) :
    (s.writeFrom b base n val).faultInfo = s.faultInfo := State.setBuf_faultInfo _ _ _
@[simp] theorem State.writeFrom_accInfo (s : State) (b : Buf) (base n : Nat) (val : Nat → Word64) :
    (s.writeFrom b base n val).accInfo = s.accInfo := State.setBuf_accInfo _ _ _
@[simp] theorem State.writeFrom_imgDim (s : State) (b : Buf) (base n : Nat) (val : Nat → Word64) :
    (s.writeFrom b base n val).imgDim = s.imgDim := State.setBuf_imgDim _ _ _
@[simp] theorem State.writeFrom_blkReq (s : State) (b : Buf) (base n : Nat) (val : Nat → Word64) :
    (s.writeFrom b base n val).blkReq = s.blkReq := State.setBuf_blkReq _ _ _
@[simp] theorem State.writeFrom_dctCtx (s : State) (b : Buf) (base n : Nat) (val : Nat → Word64) :
    (s.writeFrom b base n val).dctCtx = s.dctCtx := State.setBuf_dctCtx _ _ _
@[simp] theorem State.writeFrom_phiShape (s : State) (b : Buf) (base n : Nat) (val : Nat → Word64) :
    (s.writeFrom b base n val).phiShape = s.phiShape := State.setBuf_phiShape _ _ _
@[simp] theorem State.writeFrom_bufSel (s : State) (b : Buf) (base n : Nat) (val : Nat → Word64) :
    (s.writeFrom b base n val).bufSel = s.bufSel := State.setBuf_bufSel _ _ _
@[simp] theorem State.writeFrom_bufIdx (s : State) (b : Buf) (base n : Nat) (val : Nat → Word64) :
    (s.writeFrom b base n val).bufIdx = s.bufIdx := State.setBuf_bufIdx _ _ _
@[simp] theorem State.writeFrom_curCmd (s : State) (b : Buf) (base n : Nat) (val : Nat → Word64) :
    (s.writeFrom b base n val).curCmd = s.curCmd := State.setBuf_curCmd _ _ _
@[simp] theorem State.writeFrom_basis (s : State) (b : Buf) (base n : Nat) (val : Nat → Word64) :
    (s.writeFrom b base n val).basis = s.basis := State.setBuf_basis _ _ _
@[simp] theorem State.writeFrom_unwrittenSeed (s : State) (b : Buf) (base n : Nat) (val : Nat → Word64) :
    (s.writeFrom b base n val).unwrittenSeed = s.unwrittenSeed := State.setBuf_unwrittenSeed _ _ _
@[simp] theorem State.writeFrom_freeCount (s : State) (b : Buf) (base n : Nat) (val : Nat → Word64) :
    (s.writeFrom b base n val).freeCount = s.freeCount := State.setBuf_freeCount _ _ _
@[simp] theorem State.writeFrom_hostData (s : State) (b : Buf) (base n : Nat) (val : Nat → Word64) :
    (s.writeFrom b base n val).hostData = s.hostData := State.setBuf_hostData _ _ _
@[simp] theorem State.writeFrom_events (s : State) (b : Buf) (base n : Nat) (val : Nat → Word64) :
    (s.writeFrom b base n val).events = s.events := State.setBuf_events _ _ _

@[simp] theorem State.writeFrom32_cap (s : State) (b : Buf) (base n : Nat) (val : Nat → Word32) :
    (s.writeFrom32 b base n val).cap = s.cap := State.setBuf_cap _ _ _
@[simp] theorem State.writeFrom32_ctrl (s : State) (b : Buf) (base n : Nat) (val : Nat → Word32) :
    (s.writeFrom32 b base n val).ctrl = s.ctrl := State.setBuf_ctrl _ _ _
@[simp] theorem State.writeFrom32_status (s : State) (b : Buf) (base n : Nat) (val : Nat → Word32) :
    (s.writeFrom32 b base n val).status = s.status := State.setBuf_status _ _ _
@[simp] theorem State.writeFrom32_faultInfo (s : State) (b : Buf) (base n : Nat) (val : Nat → Word32) :
    (s.writeFrom32 b base n val).faultInfo = s.faultInfo := State.setBuf_faultInfo _ _ _
@[simp] theorem State.writeFrom32_accInfo (s : State) (b : Buf) (base n : Nat) (val : Nat → Word32) :
    (s.writeFrom32 b base n val).accInfo = s.accInfo := State.setBuf_accInfo _ _ _
@[simp] theorem State.writeFrom32_imgDim (s : State) (b : Buf) (base n : Nat) (val : Nat → Word32) :
    (s.writeFrom32 b base n val).imgDim = s.imgDim := State.setBuf_imgDim _ _ _
@[simp] theorem State.writeFrom32_blkReq (s : State) (b : Buf) (base n : Nat) (val : Nat → Word32) :
    (s.writeFrom32 b base n val).blkReq = s.blkReq := State.setBuf_blkReq _ _ _
@[simp] theorem State.writeFrom32_dctCtx (s : State) (b : Buf) (base n : Nat) (val : Nat → Word32) :
    (s.writeFrom32 b base n val).dctCtx = s.dctCtx := State.setBuf_dctCtx _ _ _
@[simp] theorem State.writeFrom32_phiShape (s : State) (b : Buf) (base n : Nat) (val : Nat → Word32) :
    (s.writeFrom32 b base n val).phiShape = s.phiShape := State.setBuf_phiShape _ _ _
@[simp] theorem State.writeFrom32_bufSel (s : State) (b : Buf) (base n : Nat) (val : Nat → Word32) :
    (s.writeFrom32 b base n val).bufSel = s.bufSel := State.setBuf_bufSel _ _ _
@[simp] theorem State.writeFrom32_bufIdx (s : State) (b : Buf) (base n : Nat) (val : Nat → Word32) :
    (s.writeFrom32 b base n val).bufIdx = s.bufIdx := State.setBuf_bufIdx _ _ _
@[simp] theorem State.writeFrom32_curCmd (s : State) (b : Buf) (base n : Nat) (val : Nat → Word32) :
    (s.writeFrom32 b base n val).curCmd = s.curCmd := State.setBuf_curCmd _ _ _
@[simp] theorem State.writeFrom32_basis (s : State) (b : Buf) (base n : Nat) (val : Nat → Word32) :
    (s.writeFrom32 b base n val).basis = s.basis := State.setBuf_basis _ _ _
@[simp] theorem State.writeFrom32_unwrittenSeed (s : State) (b : Buf) (base n : Nat) (val : Nat → Word32) :
    (s.writeFrom32 b base n val).unwrittenSeed = s.unwrittenSeed := State.setBuf_unwrittenSeed _ _ _
@[simp] theorem State.writeFrom32_freeCount (s : State) (b : Buf) (base n : Nat) (val : Nat → Word32) :
    (s.writeFrom32 b base n val).freeCount = s.freeCount := State.setBuf_freeCount _ _ _
@[simp] theorem State.writeFrom32_hostData (s : State) (b : Buf) (base n : Nat) (val : Nat → Word32) :
    (s.writeFrom32 b base n val).hostData = s.hostData := State.setBuf_hostData _ _ _
@[simp] theorem State.writeFrom32_events (s : State) (b : Buf) (base n : Nat) (val : Nat → Word32) :
    (s.writeFrom32 b base n val).events = s.events := State.setBuf_events _ _ _

@[simp] theorem finishCommand_cap (s : State) : (finishCommand s).cap = s.cap := rfl
@[simp] theorem finishCommand_ctrl (s : State) : (finishCommand s).ctrl = s.ctrl := rfl
@[simp] theorem finishCommand_faultInfo (s : State) : (finishCommand s).faultInfo = s.faultInfo := rfl
@[simp] theorem finishCommand_accInfo (s : State) : (finishCommand s).accInfo = s.accInfo := rfl
@[simp] theorem finishCommand_imgDim (s : State) : (finishCommand s).imgDim = s.imgDim := rfl
@[simp] theorem finishCommand_blkReq (s : State) : (finishCommand s).blkReq = s.blkReq := rfl
@[simp] theorem finishCommand_dctCtx (s : State) : (finishCommand s).dctCtx = s.dctCtx := rfl
@[simp] theorem finishCommand_phiShape (s : State) : (finishCommand s).phiShape = s.phiShape := rfl
@[simp] theorem finishCommand_bufSel (s : State) : (finishCommand s).bufSel = s.bufSel := rfl
@[simp] theorem finishCommand_bufIdx (s : State) : (finishCommand s).bufIdx = s.bufIdx := rfl
@[simp] theorem finishCommand_curCmd (s : State) : (finishCommand s).curCmd = s.curCmd := rfl
@[simp] theorem finishCommand_basis (s : State) : (finishCommand s).basis = s.basis := rfl
@[simp] theorem finishCommand_unwrittenSeed (s : State) : (finishCommand s).unwrittenSeed = s.unwrittenSeed := rfl
@[simp] theorem finishCommand_freeCount (s : State) : (finishCommand s).freeCount = s.freeCount := rfl
@[simp] theorem finishCommand_hostData (s : State) : (finishCommand s).hostData = s.hostData := rfl
@[simp] theorem finishCommand_events (s : State) : (finishCommand s).events = s.events := rfl
@[simp] theorem finishCommand_buf (s : State) (b : Buf) : (finishCommand s).buf b = s.buf b := by cases b <;> rfl

@[simp] theorem raiseFault_cap (c : CmdFault) (w : Word32) (s : State) : (raiseFault c w s).cap = s.cap := rfl
@[simp] theorem raiseFault_ctrl (c : CmdFault) (w : Word32) (s : State) : (raiseFault c w s).ctrl = s.ctrl := rfl
@[simp] theorem raiseFault_accInfo (c : CmdFault) (w : Word32) (s : State) : (raiseFault c w s).accInfo = s.accInfo := rfl
@[simp] theorem raiseFault_imgDim (c : CmdFault) (w : Word32) (s : State) : (raiseFault c w s).imgDim = s.imgDim := rfl
@[simp] theorem raiseFault_blkReq (c : CmdFault) (w : Word32) (s : State) : (raiseFault c w s).blkReq = s.blkReq := rfl
@[simp] theorem raiseFault_dctCtx (c : CmdFault) (w : Word32) (s : State) : (raiseFault c w s).dctCtx = s.dctCtx := rfl
@[simp] theorem raiseFault_phiShape (c : CmdFault) (w : Word32) (s : State) : (raiseFault c w s).phiShape = s.phiShape := rfl
@[simp] theorem raiseFault_bufSel (c : CmdFault) (w : Word32) (s : State) : (raiseFault c w s).bufSel = s.bufSel := rfl
@[simp] theorem raiseFault_bufIdx (c : CmdFault) (w : Word32) (s : State) : (raiseFault c w s).bufIdx = s.bufIdx := rfl
@[simp] theorem raiseFault_curCmd (c : CmdFault) (w : Word32) (s : State) : (raiseFault c w s).curCmd = s.curCmd := rfl
@[simp] theorem raiseFault_basis (c : CmdFault) (w : Word32) (s : State) : (raiseFault c w s).basis = s.basis := rfl
@[simp] theorem raiseFault_unwrittenSeed (c : CmdFault) (w : Word32) (s : State) : (raiseFault c w s).unwrittenSeed = s.unwrittenSeed := rfl
@[simp] theorem raiseFault_freeCount (c : CmdFault) (w : Word32) (s : State) : (raiseFault c w s).freeCount = s.freeCount := rfl
@[simp] theorem raiseFault_hostData (c : CmdFault) (w : Word32) (s : State) : (raiseFault c w s).hostData = s.hostData := rfl
@[simp] theorem raiseFault_events (c : CmdFault) (w : Word32) (s : State) : (raiseFault c w s).events = s.events := rfl
@[simp] theorem raiseFault_buf (c : CmdFault) (w : Word32) (s : State) (b : Buf) : (raiseFault c w s).buf b = s.buf b := by cases b <;> rfl

@[simp] theorem flagAccErr_cap (c : AccError) (s : State) : (flagAccErr c s).cap = s.cap := rfl
@[simp] theorem flagAccErr_ctrl (c : AccError) (s : State) : (flagAccErr c s).ctrl = s.ctrl := rfl
@[simp] theorem flagAccErr_faultInfo (c : AccError) (s : State) : (flagAccErr c s).faultInfo = s.faultInfo := rfl
@[simp] theorem flagAccErr_imgDim (c : AccError) (s : State) : (flagAccErr c s).imgDim = s.imgDim := rfl
@[simp] theorem flagAccErr_blkReq (c : AccError) (s : State) : (flagAccErr c s).blkReq = s.blkReq := rfl
@[simp] theorem flagAccErr_dctCtx (c : AccError) (s : State) : (flagAccErr c s).dctCtx = s.dctCtx := rfl
@[simp] theorem flagAccErr_phiShape (c : AccError) (s : State) : (flagAccErr c s).phiShape = s.phiShape := rfl
@[simp] theorem flagAccErr_bufSel (c : AccError) (s : State) : (flagAccErr c s).bufSel = s.bufSel := rfl
@[simp] theorem flagAccErr_bufIdx (c : AccError) (s : State) : (flagAccErr c s).bufIdx = s.bufIdx := rfl
@[simp] theorem flagAccErr_curCmd (c : AccError) (s : State) : (flagAccErr c s).curCmd = s.curCmd := rfl
@[simp] theorem flagAccErr_basis (c : AccError) (s : State) : (flagAccErr c s).basis = s.basis := rfl
@[simp] theorem flagAccErr_unwrittenSeed (c : AccError) (s : State) : (flagAccErr c s).unwrittenSeed = s.unwrittenSeed := rfl
@[simp] theorem flagAccErr_freeCount (c : AccError) (s : State) : (flagAccErr c s).freeCount = s.freeCount := rfl
@[simp] theorem flagAccErr_hostData (c : AccError) (s : State) : (flagAccErr c s).hostData = s.hostData := rfl
@[simp] theorem flagAccErr_events (c : AccError) (s : State) : (flagAccErr c s).events = s.events := rfl
@[simp] theorem flagAccErr_buf (c : AccError) (s : State) (b : Buf) : (flagAccErr c s).buf b = s.buf b := by cases b <;> rfl

@[simp] theorem returnData_cap (v : Word64) (s : State) : (returnData v s).cap = s.cap := rfl
@[simp] theorem returnData_ctrl (v : Word64) (s : State) : (returnData v s).ctrl = s.ctrl := rfl
@[simp] theorem returnData_status (v : Word64) (s : State) : (returnData v s).status = s.status := rfl
@[simp] theorem returnData_faultInfo (v : Word64) (s : State) : (returnData v s).faultInfo = s.faultInfo := rfl
@[simp] theorem returnData_accInfo (v : Word64) (s : State) : (returnData v s).accInfo = s.accInfo := rfl
@[simp] theorem returnData_imgDim (v : Word64) (s : State) : (returnData v s).imgDim = s.imgDim := rfl
@[simp] theorem returnData_blkReq (v : Word64) (s : State) : (returnData v s).blkReq = s.blkReq := rfl
@[simp] theorem returnData_dctCtx (v : Word64) (s : State) : (returnData v s).dctCtx = s.dctCtx := rfl
@[simp] theorem returnData_phiShape (v : Word64) (s : State) : (returnData v s).phiShape = s.phiShape := rfl
@[simp] theorem returnData_bufSel (v : Word64) (s : State) : (returnData v s).bufSel = s.bufSel := rfl
@[simp] theorem returnData_bufIdx (v : Word64) (s : State) : (returnData v s).bufIdx = s.bufIdx := rfl
@[simp] theorem returnData_curCmd (v : Word64) (s : State) : (returnData v s).curCmd = s.curCmd := rfl
@[simp] theorem returnData_basis (v : Word64) (s : State) : (returnData v s).basis = s.basis := rfl
@[simp] theorem returnData_unwrittenSeed (v : Word64) (s : State) : (returnData v s).unwrittenSeed = s.unwrittenSeed := rfl
@[simp] theorem returnData_freeCount (v : Word64) (s : State) : (returnData v s).freeCount = s.freeCount := rfl
@[simp] theorem returnData_events (v : Word64) (s : State) : (returnData v s).events = s.events := rfl
@[simp] theorem returnData_buf (v : Word64) (s : State) (b : Buf) : (returnData v s).buf b = s.buf b := by cases b <;> rfl

@[simp] theorem bumpIndex_cap (s : State) : (bumpIndex s).cap = s.cap := rfl
@[simp] theorem bumpIndex_ctrl (s : State) : (bumpIndex s).ctrl = s.ctrl := rfl
@[simp] theorem bumpIndex_status (s : State) : (bumpIndex s).status = s.status := rfl
@[simp] theorem bumpIndex_faultInfo (s : State) : (bumpIndex s).faultInfo = s.faultInfo := rfl
@[simp] theorem bumpIndex_accInfo (s : State) : (bumpIndex s).accInfo = s.accInfo := rfl
@[simp] theorem bumpIndex_imgDim (s : State) : (bumpIndex s).imgDim = s.imgDim := rfl
@[simp] theorem bumpIndex_blkReq (s : State) : (bumpIndex s).blkReq = s.blkReq := rfl
@[simp] theorem bumpIndex_dctCtx (s : State) : (bumpIndex s).dctCtx = s.dctCtx := rfl
@[simp] theorem bumpIndex_phiShape (s : State) : (bumpIndex s).phiShape = s.phiShape := rfl
@[simp] theorem bumpIndex_bufSel (s : State) : (bumpIndex s).bufSel = s.bufSel := rfl
@[simp] theorem bumpIndex_curCmd (s : State) : (bumpIndex s).curCmd = s.curCmd := rfl
@[simp] theorem bumpIndex_basis (s : State) : (bumpIndex s).basis = s.basis := rfl
@[simp] theorem bumpIndex_unwrittenSeed (s : State) : (bumpIndex s).unwrittenSeed = s.unwrittenSeed := rfl
@[simp] theorem bumpIndex_freeCount (s : State) : (bumpIndex s).freeCount = s.freeCount := rfl
@[simp] theorem bumpIndex_hostData (s : State) : (bumpIndex s).hostData = s.hostData := rfl
@[simp] theorem bumpIndex_events (s : State) : (bumpIndex s).events = s.events := rfl
@[simp] theorem bumpIndex_buf (s : State) (b : Buf) : (bumpIndex s).buf b = s.buf b := by cases b <;> rfl

@[simp] theorem finishCommand_status (s : State) : (finishCommand s).status = completeFlags s.status := rfl
@[simp] theorem raiseFault_status (c : CmdFault) (w : Word32) (s : State) :
    (raiseFault c w s).status = { s.status with fault := true } := rfl
@[simp] theorem raiseFault_faultInfo (c : CmdFault) (w : Word32) (s : State) :
    (raiseFault c w s).faultInfo = { code := some c, cmdWord := w } := rfl
@[simp] theorem flagAccErr_status (c : AccError) (s : State) : (flagAccErr c s).status = { s.status with accErr := true } := rfl
@[simp] theorem returnData_hostData (v : Word64) (s : State) : (returnData v s).hostData = v := rfl
@[simp] theorem bumpIndex_bufIdx (s : State) : (bumpIndex s).bufIdx = s.bufIdx + 1 := rfl

end Sys2Proof.Machine
end

