-- ==== Sys2Proof/Laws/Memory.lean ====
section
/-! SUPPORT. The laws of the buffers: reading after writing, and the canonical form kept by every memory operation. -/

namespace Sys2Proof.Machine

/-- The canonical form as a proposition. -/
theorem bufferWf_iff {d : Elem} {m : Buffer} :
    bufferWf d m = true ↔ (m.Pairwise fun a b => a.1 < b.1) ∧ ∀ a ∈ m, a.2 ≠ d := by
  simp [bufferWf]

@[simp] theorem bufferWf_nil (d : Elem) : bufferWf d [] = true := by simp [bufferWf]

theorem bufferWf_cons {d : Elem} {j : Nat} {f : Elem} {t : Buffer} :
    bufferWf d ((j, f) :: t) = true ↔ (∀ a ∈ t, j < a.1) ∧ f ≠ d ∧ bufferWf d t = true := by
  simp only [bufferWf_iff, List.pairwise_cons, List.mem_cons, forall_eq_or_imp]
  tauto

/-- An index below every listed one reads as unlisted. -/
theorem readElem_of_lt {d : Elem} {m : Buffer} {i : Nat} (h : ∀ a ∈ m, i < a.1) : readElem d m i = d := by
  induction m with
  | nil => rfl
  | cons a t ih =>
    obtain ⟨j, f⟩ := a
    have hj : i ≠ j := (h (j, f) (by simp)).ne
    simp only [readElem, hj, if_false]
    exact ih fun a ha => h a (by simp [ha])

/-- Reading after writing an element. The written contents differ from what an unlisted index holds, or the buffer is in
canonical form. -/
theorem readElem_putElem {d : Elem} {m : Buffer} {i : Nat} {e : Elem} (h : e ≠ d ∨ bufferWf d m = true) (j : Nat) :
    readElem d (putElem d m i e) j = if j = i then e else readElem d m j := by
  induction m with
  | nil => by_cases he : e = d <;> simp [putElem, readElem, he]
  | cons a t ih =>
    obtain ⟨k, f⟩ := a
    have ht : e ≠ d ∨ bufferWf d t = true := h.imp id fun w => (bufferWf_cons.mp w).2.2
    have below : bufferWf d ((k, f) :: t) = true → ∀ a ∈ t, k < a.1 := fun w => (bufferWf_cons.mp w).1
    unfold putElem
    by_cases hlt : i < k
    · by_cases he : e = d
      · have w := h.resolve_left (not_not.mpr he)
        have hd : readElem d ((k, f) :: t) i = d := readElem_of_lt fun a ha => by
          rcases List.mem_cons.mp ha with rfl | ha
          · exact hlt
          · exact lt_trans hlt (below w a ha)
        by_cases hj : j = i <;> simp [hlt, he, hj, hd]
      · simp [hlt, he, readElem]
    · by_cases hik : i = k
      · subst hik
        by_cases he : e = d
        · have w := h.resolve_left (not_not.mpr he)
          have hd : readElem d t i = d := readElem_of_lt (below w)
          by_cases hj : j = i <;> simp [he, hj, hd, readElem]
        · by_cases hj : j = i <;> simp [he, hj, readElem]
      · simp only [hlt, hik, if_false, readElem, ih ht]
        by_cases hjk : j = k
        · subst hjk
          simp [Ne.symm hik]
        · simp [hjk]

/-- Every entry after a write was there before or is the written one. -/
theorem mem_putElem {d : Elem} {m : Buffer} {i : Nat} {e : Elem} {a : Nat × Elem} (h : a ∈ putElem d m i e) :
    (a = (i, e) ∧ e ≠ d) ∨ a ∈ m := by
  induction m with
  | nil => by_cases he : e = d <;> simp_all [putElem]
  | cons b t ih =>
    obtain ⟨k, f⟩ := b
    unfold putElem at h
    split_ifs at h <;> simp_all
    all_goals tauto

/-- A write keeps the canonical form. -/
theorem putElem_wf {d : Elem} {m : Buffer} (i : Nat) (e : Elem) (w : bufferWf d m = true) :
    bufferWf d (putElem d m i e) = true := by
  induction m with
  | nil => by_cases he : e = d <;> simp [putElem, he, bufferWf]
  | cons b t ih =>
    obtain ⟨k, f⟩ := b
    obtain ⟨hk, hf, wt⟩ := bufferWf_cons.mp w
    unfold putElem
    by_cases hlt : i < k
    · by_cases he : e = d
      · simpa [hlt, he] using w
      · simp only [hlt, he, if_true, if_false, bufferWf_cons]
        refine ⟨?_, he, hk, hf, wt⟩
        intro a ha
        rcases List.mem_cons.mp ha with rfl | ha
        · exact hlt
        · exact lt_trans hlt (hk a ha)
    · by_cases hik : i = k
      · subst hik
        by_cases he : e = d
        · simpa [he] using wt
        · simp only [lt_irrefl, he, if_false, if_true, bufferWf_cons]
          exact ⟨hk, he, wt⟩
      · simp only [hlt, hik, if_false, bufferWf_cons]
        refine ⟨?_, hf, ih wt⟩
        intro a ha
        rcases mem_putElem ha with ⟨rfl, -⟩ | ha
        · omega
        · exact hk a ha

/-- A scatter keeps the canonical form. -/
theorem scatterElems_wf {d : Elem} (idx : Nat → Nat) (el : Nat → Elem) (n : Nat) {m : Buffer} (w : bufferWf d m = true) :
    bufferWf d (scatterElems d idx el n m) = true := by
  induction n with
  | zero => exact w
  | succ n ih => exact putElem_wf _ _ ih

/-- An index that is not written reads as before. -/
theorem readElem_scatter_miss {d : Elem} {idx : Nat → Nat} {el : Nat → Elem} {n : Nat} {m : Buffer} {j : Nat}
    (h : (∀ k < n, el k ≠ d) ∨ bufferWf d m = true) (hj : ∀ k < n, idx k ≠ j) :
    readElem d (scatterElems d idx el n m) j = readElem d m j := by
  induction n with
  | zero => rfl
  | succ n ih =>
    have h' : el n ≠ d ∨ bufferWf d (scatterElems d idx el n m) = true :=
      h.imp (fun f => f n (by omega)) fun w => scatterElems_wf _ _ _ w
    have hn : j ≠ idx n := (hj n (by omega)).symm
    rw [scatterElems, readElem_putElem h', if_neg hn]
    exact ih (h.imp (fun f k hk => f k (by omega)) id) fun k hk => hj k (by omega)

/-- A written index reads as what the scatter put there, when no two positions share an index. -/
theorem readElem_scatter_hit {d : Elem} {idx : Nat → Nat} {el : Nat → Elem} {n : Nat} {m : Buffer} {k : Nat}
    (h : (∀ k < n, el k ≠ d) ∨ bufferWf d m = true) (inj : ∀ a < n, ∀ b < n, idx a = idx b → a = b) (hk : k < n) :
    readElem d (scatterElems d idx el n m) (idx k) = el k := by
  induction n with
  | zero => omega
  | succ n ih =>
    have h' : el n ≠ d ∨ bufferWf d (scatterElems d idx el n m) = true :=
      h.imp (fun f => f n (by omega)) fun w => scatterElems_wf _ _ _ w
    rw [scatterElems, readElem_putElem h']
    by_cases hkn : k = n
    · simp [hkn]
    · have : idx k ≠ idx n := fun e => hkn (inj k (by omega) n (by omega) e)
      rw [if_neg this]
      exact ih (h.imp (fun f k hk => f k (by omega)) id) (fun a ha b hb => inj a (by omega) b (by omega)) (by omega)

/-- An element's own bits are fixed by packing. -/
@[simp] theorem packElem_packElem (b : Buf) (v : Word64) : packElem b (packElem b v) = packElem b v := by
  cases b <;> simp only [packElem, elemBits] <;> ext i <;> simp

/-- A binary32 value stored in a 32-bit buffer reads back. -/
theorem setWidth_packElem32 {b : Buf} (hb : elemBits b = 32) (v : Word32) :
    (packElem b (v.setWidth 64)).setWidth 32 = v := by
  unfold packElem
  generalize elemBits b = n at hb
  subst hb
  ext i
  simp

/-- `elem` sees a buffer and the seed of the unwritten elements, nothing else. -/
theorem State.elem_congr {s t : State} {b : Buf} (hs : s.unwrittenSeed = t.unwrittenSeed) (hb : s.buf b = t.buf b) (i : Nat) :
    s.elem b i = t.elem b i := by
  simp [State.elem, State.unwritten, hs, hb]

/-- A scatter into a buffer leaves the other buffers. -/
theorem State.elem_scatter_other (s : State) {b b' : Buf} (h : b' ≠ b) (n : Nat) (idx : Nat → Nat) (el : Nat → Elem) (i : Nat) :
    (s.scatter b n idx el).elem b' i = s.elem b' i :=
  State.elem_congr (by simp [State.scatter]) (by simp [State.scatter, State.buf_setBuf_other, h]) i

/-- `writeAt` leaves the other buffers. -/
theorem State.elem_writeAt_other (s : State) {b b' : Buf} (h : b' ≠ b) (n : Nat) (idx : Nat → Nat) (val : Nat → Word64)
    (i : Nat) : (s.writeAt b n idx val).elem b' i = s.elem b' i :=
  s.elem_scatter_other h n idx _ i

/-- `writeAt` leaves the elements it does not write. -/
theorem State.elem_writeAt_miss (s : State) (b : Buf) {n : Nat} {idx : Nat → Nat} (val : Nat → Word64) {j : Nat}
    (hj : ∀ k < n, idx k ≠ j) : (s.writeAt b n idx val).elem b j = s.elem b j := by
  simp only [State.elem, State.writeAt, State.scatter, State.unwritten, State.setBuf_unwrittenSeed, State.buf_setBuf_same]
  rw [readElem_scatter_miss (.inl fun k _ => by simp) hj]

/-- `writeAt` writes its elements, when no two positions share an index. -/
theorem State.elem_writeAt_hit (s : State) (b : Buf) {n : Nat} {idx : Nat → Nat} (val : Nat → Word64) {k : Nat}
    (inj : ∀ a < n, ∀ c < n, idx a = idx c → a = c) (hk : k < n) :
    (s.writeAt b n idx val).elem b (idx k) = packElem b (val k) := by
  simp only [State.elem, State.writeAt, State.scatter, State.unwritten, State.setBuf_unwrittenSeed, State.buf_setBuf_same]
  rw [readElem_scatter_hit (.inl fun k _ => by simp) inj hk]
  simp [elemValue]

/-- `writeFrom` leaves the other buffers. -/
theorem State.elem_writeFrom_other (s : State) {b b' : Buf} (h : b' ≠ b) (base n : Nat) (val : Nat → Word64) (i : Nat) :
    (s.writeFrom b base n val).elem b' i = s.elem b' i :=
  s.elem_writeAt_other h n _ val i

/-- `writeFrom` writes elements base .. base + n - 1 and leaves the others. -/
theorem State.elem_writeFrom (s : State) (b : Buf) (base n : Nat) (val : Nat → Word64) (j : Nat) :
    (s.writeFrom b base n val).elem b j = if base ≤ j ∧ j < base + n then packElem b (val (j - base)) else s.elem b j := by
  by_cases h : base ≤ j ∧ j < base + n
  · rw [if_pos h]
    have hj : j = base + (j - base) := by omega
    rw [State.writeFrom]
    conv_lhs => rw [hj]
    exact s.elem_writeAt_hit b (idx := fun k => base + k) val (fun a _ c _ e => by simpa using e) (k := j - base) (by omega)
  · rw [if_neg h]
    exact s.elem_writeAt_miss b val fun k hk e => h (by omega)

/-- The element writes change only their buffer. -/
theorem State.writeFrom_eq_setBuf (s : State) (b : Buf) (base n : Nat) (val : Nat → Word64) :
    s.writeFrom b base n val = s.setBuf b ((s.writeFrom b base n val).buf b) := by
  simp [State.writeFrom, State.writeAt, State.scatter]

/-- Every write of a buffer keeps every buffer's canonical form. -/
theorem State.scatter_wf (s : State) (b : Buf) (n : Nat) (idx : Nat → Nat) (el : Nat → Elem)
    (w : ∀ b, bufferWf s.unwritten (s.buf b) = true) (b' : Buf) :
    bufferWf (s.scatter b n idx el).unwritten ((s.scatter b n idx el).buf b') = true := by
  have hu : (s.scatter b n idx el).unwritten = s.unwritten := by simp [State.scatter, State.unwritten]
  rw [hu]
  by_cases h : b' = b
  · subst h
    simpa [State.scatter] using scatterElems_wf idx el n (w b')
  · simpa [State.scatter, State.buf_setBuf_other, h] using w b'

/-- Forgetting spans keeps every buffer's canonical form. -/
theorem forgetSpans_wf (seed : Nat) (l : List Span) (s : State) (w : ∀ b, bufferWf s.unwritten (s.buf b) = true) (b : Buf) :
    bufferWf (forgetSpans seed l s).unwritten ((forgetSpans seed l s).buf b) = true := by
  induction l generalizing s with
  | nil => exact w b
  | cons p t ih => exact ih _ (s.scatter_wf _ _ _ _ w)

/-- The memory after reset is in canonical form. -/
theorem reset_memory_wf (b : Buf) : bufferWf State.reset.unwritten (State.reset.buf b) = true := by
  cases b with
  | chan c => cases c <;> rfl
  | sba c => cases c <;> rfl
  | sbh c => cases c <;> rfl
  | sbv c => cases c <;> rfl
  | sbd c => cases c <;> rfl
  | _ => rfl

end Sys2Proof.Machine
end

