-- ==== Sys2Proof/Laws/Ops.lean ====
section
/-! SUPPORT. What each shared operation can do, said once: a command's life, its effect's frame, acceptance, forgetting, and
one inversion lemma for a step. -/

namespace Sys2Proof.Machine

/-- The effect of each command, as its meaning uses it. -/
def effectOf : Instr → State → State
  | .rgb2yuv => effectRgb2yuv
  | .yuv2rgb => effectYuv2rgb
  | .mapgen => effectMapgen
  | .dwt ch m => effectDwt ch m
  | .idwt ch m => effectIdwt ch m
  | .dctinit => effectDctinit
  | .dct ch k => effectDct ch k
  | .idct => effectIdct
  | .svd => effectSvd
  | .isvd => effectIsvd

/-- Every meaning is a command's life over its effect. -/
theorem exec_eq_life (i : Instr) (s : State) : exec i s = commandLife i (effectOf i) s := by cases i <;> rfl

/-- The command in flight completes: its effect, then BUSY and DONE. -/
theorem exec_of_busy (i : Instr) {s : State} (h : s.status.busy = true) :
    exec i s = .next (finishCommand (effectOf i s)) := by
  simp [exec_eq_life, commandLife, h]

/-- A command presented to the idle engine is accepted or refused. -/
theorem exec_of_idle (i : Instr) {s : State} (h : s.status.busy = false) : exec i s = .next (acceptCommand i s) := by
  simp [exec_eq_life, commandLife, h]

/-- Acceptance either latches the word or raises the first failing check's fault. -/
theorem acceptCommand_cases (i : Instr) (s : State) :
    (firstFault (acceptChecks s i) = none ∧
      acceptCommand i s = { s with curCmd := encode i, status := busyFlags (acceptFlags s.status) }) ∨
    ∃ f, firstFault (acceptChecks s i) = some f ∧
      acceptCommand i s = raiseFault f (encode i) { s with status := acceptFlags s.status } := by
  unfold acceptCommand
  cases h : firstFault (acceptChecks s i) with
  | none => exact .inl ⟨rfl, rfl⟩
  | some f => exact .inr ⟨f, rfl, rfl⟩

/-- No check fails exactly when every check holds. -/
theorem firstFault_none_iff {l : List (Bool × CmdFault)} : firstFault l = none ↔ ∀ c ∈ l, c.1 = true := by
  induction l with
  | nil => simp [firstFault]
  | cons a t ih =>
    obtain ⟨ok, f⟩ := a
    cases ok <;> simp [firstFault, ih]

/-- The rebuild on demand leaves the geometry, the parameters and every buffer but PHI. -/
theorem ensurePhi_cases (s : State) : (s.phiOk = true ∧ ensurePhi s = s) ∨ (s.phiOk = false ∧ ensurePhi s = buildPhi s) := by
  unfold ensurePhi
  cases h : s.phiOk
  · exact .inr ⟨rfl, by simp⟩
  · exact .inl ⟨rfl, by simp⟩

/-- The registers and fields no command's effect writes. -/
structure SameOutside (s t : State) : Prop where
  cap : t.cap = s.cap
  ctrl : t.ctrl = s.ctrl
  faultInfo : t.faultInfo = s.faultInfo
  accInfo : t.accInfo = s.accInfo
  imgDim : t.imgDim = s.imgDim
  blkReq : t.blkReq = s.blkReq
  bufSel : t.bufSel = s.bufSel
  bufIdx : t.bufIdx = s.bufIdx
  curCmd : t.curCmd = s.curCmd
  basis : t.basis = s.basis
  unwrittenSeed : t.unwrittenSeed = s.unwrittenSeed
  freeCount : t.freeCount = s.freeCount
  hostData : t.hostData = s.hostData
  events : t.events = s.events
  busy : t.status.busy = s.status.busy
  done : t.status.done = s.status.done
  fault : t.status.fault = s.status.fault
  accErr : t.status.accErr = s.status.accErr

theorem SameOutside.refl (s : State) : SameOutside s s := by constructor <;> rfl

theorem SameOutside.trans {s t u : State} (h : SameOutside s t) (g : SameOutside t u) : SameOutside s u := by
  constructor
  all_goals first
    | exact g.cap.trans h.cap
    | exact g.ctrl.trans h.ctrl
    | exact g.faultInfo.trans h.faultInfo
    | exact g.accInfo.trans h.accInfo
    | exact g.imgDim.trans h.imgDim
    | exact g.blkReq.trans h.blkReq
    | exact g.bufSel.trans h.bufSel
    | exact g.bufIdx.trans h.bufIdx
    | exact g.curCmd.trans h.curCmd
    | exact g.basis.trans h.basis
    | exact g.unwrittenSeed.trans h.unwrittenSeed
    | exact g.freeCount.trans h.freeCount
    | exact g.hostData.trans h.hostData
    | exact g.events.trans h.events
    | exact g.busy.trans h.busy
    | exact g.done.trans h.done
    | exact g.fault.trans h.fault
    | exact g.accErr.trans h.accErr

theorem sameOutside_writeAt (s : State) (b : Buf) (n : Nat) (idx : Nat → Nat) (val : Nat → Word64) :
    SameOutside s (s.writeAt b n idx val) := by constructor <;> simp

theorem sameOutside_writeFrom (s : State) (b : Buf) (base n : Nat) (val : Nat → Word64) :
    SameOutside s (s.writeFrom b base n val) := by constructor <;> simp

theorem sameOutside_buildPhi (s : State) : SameOutside s (buildPhi s) := by
  constructor <;> simp [buildPhi, phiFlags]

theorem sameOutside_ensurePhi (s : State) : SameOutside s (ensurePhi s) := by
  rcases ensurePhi_cases s with ⟨-, h⟩ | ⟨-, h⟩ <;> rw [h]
  · exact SameOutside.refl s
  · exact sameOutside_buildPhi s

theorem sameOutside_storeSvd (a : Option SvdTriple) (s : State) : SameOutside s (storeSvd a s) := by
  cases a <;> constructor <;> simp [storeSvd, svdDoneFlags, svdFailFlags]

/-- What no command's effect writes. -/
theorem sameOutside_effect (i : Instr) (s : State) : SameOutside s (effectOf i s) := by
  cases i with
  | dct ch k =>
    refine (sameOutside_ensurePhi s).trans ?_
    constructor <;> simp [effectOf, effectDct, dctFlags]
  | dctinit => exact sameOutside_buildPhi s
  | svd => exact sameOutside_storeSvd _ s
  | rgb2yuv => constructor <;> simp [effectOf, effectRgb2yuv]
  | yuv2rgb => constructor <;> simp [effectOf, effectYuv2rgb]
  | mapgen => constructor <;> simp [effectOf, effectMapgen, mapFlags]
  | dwt ch m => constructor <;> simp [effectOf, effectDwt]
  | idwt ch m => constructor <;> simp [effectOf, effectIdwt]
  | idct => constructor <;> simp [effectOf, effectIdct]
  | isvd => constructor <;> simp [effectOf, effectIsvd]

/-- Forgetting spans changes buffers only: any reading of the state that no buffer write changes stays. -/
theorem forgetSpans_keeps {α : Type} (f : State → α) (hf : ∀ s b m, f (State.setBuf s b m) = f s) (seed : Nat) (l : List Span)
    (s : State) : f (forgetSpans seed l s) = f s := by
  induction l generalizing s with
  | nil => rfl
  | cons p t ih => exact (ih _).trans (hf _ _ _)

/-- Forgetting spans leaves every element outside them, in memories in canonical form. -/
theorem forgetSpans_elem_outside (seed : Nat) (l : List Span) (s : State) (w : ∀ b, bufferWf s.unwritten (s.buf b) = true)
    {b : Buf} {j : Nat} (h : ∀ p ∈ l, p.buf = b → ¬(p.base ≤ j ∧ j < p.base + p.count)) :
    (forgetSpans seed l s).elem b j = s.elem b j := by
  induction l generalizing s with
  | nil => rfl
  | cons p t ih =>
    rw [forgetSpans, ih _ (s.scatter_wf _ _ _ _ w) fun q hq => h q (by simp [hq])]
    by_cases hb : b = p.buf
    · subst hb
      simp only [State.elem, State.scatter, State.unwritten, State.setBuf_unwrittenSeed, State.buf_setBuf_same]
      have wb : bufferWf (.free s.unwrittenSeed) (s.buf p.buf) = true := w p.buf
      have outside := h p (by simp) rfl
      rw [readElem_scatter_miss (j := j) (.inr wb) fun k hk e => outside (by omega)]
    · exact s.elem_scatter_other hb _ _ _ _

/-- One step is the next event, or the engine's turn when none is pending. -/
theorem step_of_nil {s : State} (h : s.events = []) : step s = engineStep s := by simp [step, h]

theorem step_of_cons {s : State} {e : Event} {rest : List Event} (h : s.events = e :: rest) :
    step s = applyEvent e { s with events := rest } := by simp [step, h]

/-- Inversion of the engine's turn: nothing while idle, else the completion of the decoded command. -/
theorem engineStep_next {s t : State} (h : engineStep s = .next t) :
    (s.status.busy = false ∧ t = s) ∨
    (s.status.busy = true ∧ ∃ i, decode s.curCmd = .ok i ∧ t = finishCommand (effectOf i s)) := by
  unfold engineStep at h
  cases hb : s.status.busy with
  | false => simp [hb] at h; exact .inl ⟨rfl, h.symm⟩
  | true =>
    refine .inr ⟨rfl, ?_⟩
    cases hd : decode s.curCmd with
    | error e => simp [hb, hd] at h
    | ok i =>
      simp only [hb, hd, if_true, exec_of_busy i hb, Host.Outcome.next.injEq] at h
      exact ⟨i, rfl, h.symm⟩

/-- Inversion of a command write: refused while BUSY or FAULT, illegal, or accepted or refused by its checks. -/
theorem presentCommand_next {w : Word32} {s t : State} (h : presentCommand w s = .next t) :
    (s.status.busy = true ∧ t = flagAccErr .busy s) ∨
    (s.status.busy = false ∧ s.status.fault = true ∧ t = flagAccErr .faultPending s) ∨
    (s.status.busy = false ∧ s.status.fault = false ∧ (∃ e, decode w = .error e) ∧ t = acceptIllegal w s) ∨
    (s.status.busy = false ∧ s.status.fault = false ∧ ∃ i, decode w = .ok i ∧ t = acceptCommand i s) := by
  unfold presentCommand at h
  cases hb : s.status.busy with
  | true => simp [hb] at h; exact .inl ⟨rfl, h.symm⟩
  | false =>
    refine .inr ?_
    cases hf : s.status.fault with
    | true => simp [hb, hf] at h; exact .inl ⟨rfl, rfl, h.symm⟩
    | false =>
      refine .inr ?_
      cases hd : decode w with
      | error e => simp [hb, hf, hd] at h; exact .inl ⟨rfl, rfl, ⟨e, rfl⟩, h.symm⟩
      | ok i =>
        simp [hb, hf, hd, exec_of_idle i hb] at h
        exact .inr ⟨rfl, rfl, i, rfl, h.symm⟩

/-- The host's writes other than to CMD never stop the machine; what they can answer. -/
theorem hostWrite_next {off : BitVec 8} {bits : Nat} {v : Word64} {s t : State} (h : hostWrite off bits v s = .next t) :
    t = s ∨ t = flagAccErr .badAccess s ∨ t = flagAccErr .busy s ∨ t = writeCtrl v s ∨ t = writeStatus v s ∨
      presentCommand (v.extractLsb' 0 32) s = .next t ∨
      (s.status.busy = false ∧
        (t = writeImgDim v s ∨ t = writeBlkReq v s ∨ t = writeBufSel v s ∨ t = writeBufIdx v s)) ∨
      t = bufPortWrite v s := by
  unfold hostWrite at h
  cases ht : hostTarget off bits with
  | none => simp [ht] at h; tauto
  | some r =>
    cases r <;> simp only [ht, unlessBusy, Host.Outcome.next.injEq] at h <;> first | tauto | skip
    all_goals
      cases hb : s.status.busy <;> simp [hb] at h <;> tauto

end Sys2Proof.Machine
end

