-- ==== Sys2Proof/Laws/PerInstr.lean ====
section
/-! SUPPORT. Statements about each command as syntax, one lemma per constructor. -/

namespace Sys2Proof.Laws

/-- The low six bits of a command's word are its OPC, one of the ten values of 30_encoding.md R113. -/
def EncodesOpcode.Statement (i : Instr) : Prop :=
  i.wf = true → (encode i).toNat % 2 ^ 6 = opcode i ∧ 1 ≤ opcode i ∧ opcode i ≤ 10

theorem EncodesOpcode.rgb2yuv : EncodesOpcode.Statement .rgb2yuv := by unfold EncodesOpcode.Statement; decide
theorem EncodesOpcode.yuv2rgb : EncodesOpcode.Statement .yuv2rgb := by unfold EncodesOpcode.Statement; decide
theorem EncodesOpcode.mapgen : EncodesOpcode.Statement .mapgen := by unfold EncodesOpcode.Statement; decide

theorem EncodesOpcode.dwt (ch : Channel) (m : Bool) : EncodesOpcode.Statement (.dwt ch m) := by
  unfold EncodesOpcode.Statement
  cases ch <;> cases m <;> decide

theorem EncodesOpcode.idwt (ch : Channel) (m : Bool) : EncodesOpcode.Statement (.idwt ch m) := by
  unfold EncodesOpcode.Statement
  cases ch <;> cases m <;> decide

theorem EncodesOpcode.dctinit : EncodesOpcode.Statement .dctinit := by unfold EncodesOpcode.Statement; decide

theorem EncodesOpcode.dct (ch : Channel) (k : Nat) : EncodesOpcode.Statement (.dct ch k) := by
  intro _
  refine ⟨?_, by simp [opcode], by simp [opcode]⟩
  cases ch <;> simp [encode, encodeB, opcode, channelNumber, BitVec.toNat_ofNat] <;> omega

theorem EncodesOpcode.idct : EncodesOpcode.Statement .idct := by unfold EncodesOpcode.Statement; decide
theorem EncodesOpcode.svd : EncodesOpcode.Statement .svd := by unfold EncodesOpcode.Statement; decide
theorem EncodesOpcode.isvd : EncodesOpcode.Statement .isvd := by unfold EncodesOpcode.Statement; decide

end Sys2Proof.Laws
end

