-- ==== Sys2Proof/Laws/Safety.lean ====
section
/-! SUPPORT. The canonical form of the whole memory, and the invariants' first lemmas. -/

namespace Sys2Proof.Machine

/-- Every buffer name is in the list. -/
theorem mem_allBufs (b : Buf) : b ∈ allBufs := by
  cases b with
  | chan c => cases c <;> decide
  | sba c => cases c <;> decide
  | sbh c => cases c <;> decide
  | sbv c => cases c <;> decide
  | sbd c => cases c <;> decide
  | _ => decide

/-- The memory's canonical form is every buffer's. -/
theorem memory_wf_iff (s : State) : Memory.wf s = true ↔ ∀ b, bufferWf s.unwritten (s.buf b) = true := by
  simp only [Memory.wf, List.all_eq_true]
  exact ⟨fun h b => h b (mem_allBufs b), fun h b _ => h b⟩

/-- The reset memory is in canonical form. -/
theorem reset_memory_canonical : Memory.wf State.reset = true := (memory_wf_iff _).mpr reset_memory_wf

/-- The canonical block dimension is positive. -/
theorem canon_pos (r : Nat) : 0 < canon r := by
  unfold canon
  simp only
  omega

theorem State.bw_pos (s : State) : 0 < s.bw := canon_pos _

theorem State.bh_pos (s : State) : 0 < s.bh := canon_pos _

end Sys2Proof.Machine
end

