-- ==== Sys2Proof/Tests/Slice0.lean ====
section
/-! SUPPORT. The model's own tests: decoding from the encoding tables, single commands against 95_test_vectors.md, and for each
statement with hypotheses a concrete state that meets them. Expected values are the spec's. -/

namespace Sys2Proof.Tests

open Sys2Proof Sys2Proof.Machine

set_option maxRecDepth 20000
-- One theorem at a time: each `decide +kernel` below waits for the declarations before it, and a thread would wait with it.
set_option Elab.async false

/-! ### Helpers -/

/-- The state an outcome reaches. -/
def nextOf : Outcome → State
  | .next s => s
  | _ => State.reset

/-- Whether an outcome is a next state. -/
def isNext : Outcome → Bool
  | .next _ => true
  | _ => false

theorem eq_nextOf {o : Outcome} (h : isNext o = true) : o = .next (nextOf o) := by
  cases o <;> simp_all [isNext, nextOf]

/-- Reset, with IMGDIM = (w, h) and BLKREQ = (bw, bh). -/
def geom (w h bw bh : BitVec 16) : State := { State.reset with imgDim := ⟨w, h⟩, blkReq := ⟨bw, bh⟩ }

/-- The listed values in a buffer from element 0. -/
def load (b : Buf) (l : List Word64) (s : State) : State := s.writeFrom b 0 l.length fun i => l.getD i 0

/-- The first `n` elements of a buffer. -/
def words (b : Buf) (n : Nat) (s : State) : List Nat := (List.range n).map fun i => (s.elem b i).toNat

/-- The state with the command word in flight. -/
def flying (w : Nat) (s : State) : State := s.withFetchWord 32 w

/-- One step with the command word in flight. -/
def runWord (w : Nat) (s : State) : State := nextOf (step (flying w s))

/-- The events still to come. -/
def events (l : List Event) (s : State) : State := { s with events := l }

/-- One event. -/
def after (e : Event) (s : State) : State := nextOf (step (events [e] s))

/-- STATUS, FAULTINFO and ACCINFO as the host reads them. -/
def report (s : State) : List Nat :=
  [(readReg s .status).toNat, (readReg s .faultInfo).toNat, (readReg s .accInfo).toNat]

/-! ### Well-formedness: the one operand whose type does not hold it in range (30_encoding.md R112) -/

theorem test_wf_refuses_wide_block_number : (Instr.dct .y (2 ^ 24)).wf = false := by decide
theorem test_wf_takes_widest_block_number : (Instr.dct .v (2 ^ 24 - 1)).wf = true := by decide

/-! ### Decoding: words written out from the formats of 30_encoding.md R111 and the opcodes of R113 -/

theorem test_decode_rgb2yuv : decode 0b00000000000000000000000000_000001 = .ok .rgb2yuv := by decide
theorem test_decode_yuv2rgb : decode 0b00000000000000000000000000_000010 = .ok .yuv2rgb := by decide
theorem test_decode_mapgen : decode 0b00000000000000000000000000_000011 = .ok .mapgen := by decide
theorem test_decode_dwt : decode 0b00000000000000000000000_0_10_000100 = .ok (.dwt .v false) := by decide
theorem test_decode_idwt : decode 0b00000000000000000000000_1_01_000101 = .ok (.idwt .u true) := by decide
theorem test_decode_dctinit : decode 0b00000000000000000000000000_000110 = .ok .dctinit := by decide
theorem test_decode_dct : decode 0b000000000000000000000101_10_000111 = .ok (.dct .v 5) := by decide
theorem test_decode_idct : decode 0b00000000000000000000000000_001000 = .ok .idct := by decide
theorem test_decode_svd : decode 0b00000000000000000000000000_001001 = .ok .svd := by decide
theorem test_decode_isvd : decode 0b00000000000000000000000000_001010 = .ok .isvd := by decide
theorem test_decode_table_word : decodeTableWord 32 0xFFFFFF47 = some (.dct .u 16777215) := by decide
theorem test_encode_dct : encode (.dct .u 16777215) = 0xFFFFFF47 := by decide
theorem test_encode_dwt_map : encode (.dwt .y true) = 0x00000104 := by decide

/-- 95_test_vectors.md section 2.6: the illegal words. -/
theorem test_decode_illegal :
    [0x00000000, 0x0000000B, 0x0000003F, 0x00000204, 0x000000C4, 0x000000C7, 0x0000010A, 0x80000001].all
      (fun w => (decodeTableWord 32 w).isNone) = true := by decide

/-! ### The commands, one step each -/

/-- P1 of 95_test_vectors.md: the four pixels. -/
def pixelsP1 : State := load .pixin [0x12340000FF, 0xFFFF00FF00, 0x0000F10000, 0x80004DC80C] (geom 2 2 0 0)

/-- P1: the channels after RGB2YUV, and alpha. -/
theorem test_rgb2yuv :
    (words (.chan .y) 4 (runWord 1 pixelsP1), words (.chan .u) 4 (runWord 1 pixelsP1), words (.chan .v) 4 (runWord 1 pixelsP1),
        words .alpha 4 (runWord 1 pixelsP1)) =
      ([0x42987D70, 0x4315AF5C, 0x41DBCAC1, 0x4301C418], [0xC2140CD7, 0xC2924A40, 0x42D31C0E, 0xC1CBAFDC],
        [0x431D44A4, 0xC302C614, 0xC1BCC1F1, 0xC2CD8FC1], [0x1234, 0xFFFF, 0x0000, 0x8000]) := by decide +kernel

/-- P1: PIXOUT after YUV2RGB. -/
theorem test_yuv2rgb :
    words .pixout 4 (runWord 2 (runWord 1 pixelsP1)) =
      [0x123400050000FFF4, 0xFFFF0009FFFF0008, 0x0000F1E200000001, 0x80004D50C8CE0C12] := by decide +kernel

/-- 95_test_vectors.md section 2.1: `Clip16` alone. -/
theorem test_clip16 :
    [0x437F0000, 0x437EFFFF, 0x437F0001, 0x42C90000, 0x3B7F9724, 0x3B7EEF5F, 0x80000000, 0x7F800000, 0xFF800000].map
        (fun v => (clip16 v).toNat) = [65535, 65534, 65535, 25828, 1, 0, 0, 65535, 0] := by decide +kernel

/-- 95_test_vectors.md section 2.2, wavelet grid (5, 4), blocks (2, 2). -/
theorem test_mapgen :
    words .bmap 20 (runWord 3 (geom 10 8 4 4)) = [0, 1, 4, 5, 16, 2, 3, 6, 7, 17, 8, 9, 12, 13, 18, 10, 11, 14, 15, 19] := by
  decide +kernel

/-- Section 2.2, grid (5, 5), blocks 3 wide and 2 high: both margins, and a shape that is not square. -/
theorem test_mapgen_margins :
    words .bmap 25 (runWord 3 (geom 9 9 6 3)) =
      [0, 1, 2, 12, 13, 3, 4, 5, 14, 15, 6, 7, 8, 16, 17, 9, 10, 11, 18, 19, 20, 21, 22, 23, 24] := by decide +kernel

/-- The 3×3 channel of section 2.3. -/
def image33 : State :=
  load (.chan .y) [0x3F800000, 0x40000000, 0x40400000, 0x40800000, 0x40A00000, 0x40C00000, 0x40E00000, 0x41000000, 0x41100000]
    (geom 3 3 0 0)

/-- Section 2.3, 3×3, no map: the four subbands, with edge replication. -/
theorem test_dwt :
    (words (.sba .y) 4 (runWord 4 image33), words (.sbh .y) 4 (runWord 4 image33), words (.sbv .y) 4 (runWord 4 image33),
        words (.sbd .y) 4 (runWord 4 image33)) =
      ([0x40BFFFFF, 0x410FFFFF, 0x41700000, 0x418FFFFF], [0xC03FFFFF, 0xC03FFFFF, 0, 0], [0xBF7FFFFB, 0, 0xBF7FFFFB, 0],
        [0, 0, 0, 0]) := by decide +kernel

/-- The 6×4 channel of section 2.3 with CHAN[i] = i, BMAP = 0 1 4 2 3 5. -/
def image64 : State :=
  load .bmap [0, 1, 4, 2, 3, 5] <| { geom 6 4 4 4 with status := { Status.reset with mapValid := true } }.writeFrom32 (.chan .y)
    0 24 fun i => f32OfU8 (BitVec.ofNat 8 i)

/-- Section 2.3, 6×4, with the map: SBA and SBV in storage order. -/
theorem test_dwt_map :
    (words (.sba .y) 6 (runWord 0x104 image64), words (.sbv .y) 6 (runWord 0x104 image64)) =
      ([0x40DFFFFF, 0x41300000, 0x41F80000, 0x420C0000, 0x41700000, 0x421C0000],
        [0xBF7FFFFB, 0xBF7FFFFB, 0xBF800009, 0xBF800009, 0xBF7FFFFB, 0xBF7FFFE5]) := by decide +kernel

/-- Section 2.3, 3×3: the nine samples IDWT writes. -/
theorem test_idwt :
    words (.chan .y) 9 (runWord 5 (runWord 4 image33)) =
      [0x3F800000, 0x3FFFFFFE, 0x403FFFFE, 0x40800000, 0x40A00000, 0x40BFFFFF, 0x40E00001, 0x41000000, 0x410FFFFF] := by
  decide +kernel

/-- Section 2.3, 6×4, with the map: the samples after DWT and IDWT. -/
theorem test_idwt_map :
    words (.chan .y) 14 (runWord 0x105 (runWord 0x104 image64)) =
      [0x00000000, 0x3F7FFFFC, 0x40000002, 0x40400000, 0x40800001, 0x40A00000, 0x40C00000, 0x40E00000, 0x41000000, 0x41100000,
        0x41200000, 0x41300000, 0x41400000, 0x41500002] := by decide +kernel

/-- Section 2.4: the tensor layout for bw = 3, bh = 2. -/
theorem test_dctinit :
    ([0, 7, 8, 18, 21, 35].map fun n => ((runWord 6 (geom 2 2 6 4)).elem .phi n).toNat) =
        [0x3FDA20BD700C2C3E, 0, 0xBFE0000000000001, 0x3FDA20BD700C2C3E, 0xBFDA20BD700C2C3E, 0xBFD279A74590331D] ∧
      readReg (runWord 6 (geom 2 2 6 4)) .phiShape = 0x00020003 := by decide +kernel

/-- 43_dct.md R190: the printed values of the default BASIS1D, rows 1 of the lengths 2, 3 and 4, and row 0 of 2 and 4. -/
theorem test_basis_default :
    [basisDefault 2 0 1, basisDefault 2 1 0, basisDefault 2 1 1, basisDefault 3 1 1, basisDefault 4 0 3, basisDefault 4 1 0,
        basisDefault 4 1 1, basisDefault 4 1 2] =
      [0x3FE6A09E667F3BCD, 0x3FE6A09E667F3BCD, 0xBFE6A09E667F3BCD, 0, 0x3FE0000000000000, 0x3FE4E7AE9144F0FC,
        0x3FD1517A7BDB3895, 0xBFD1517A7BDB3895] := by decide +kernel

/-- 43_dct.md R190: about 5e-17 where the real value is 0 is admissible; 2^-51 is not (00_scope.md R6). -/
theorem test_basis_admits :
    basisAdmits 3 1 1 0x3C8CD2B297D889BC = true ∧ basisAdmits 3 1 1 0x3CC0000000000000 = false := by decide +kernel

/-- A 16×16 geometry of 3 wide, 2 high blocks whose block 2 in the subband SBA[V] holds 1 .. 6. -/
def image32 : State := (geom 16 16 6 4).writeFrom32 (.sba .v) 12 6 fun i => f32OfU8 (BitVec.ofNat 8 (i + 1))

/-- Section 2.4, shape (3, 2), the slice 1 .. 6 (here of block 2 of V). -/
theorem test_dct :
    words .coef 6 (runWord 0x287 image32) =
      [0x4021257C5187FD08, 0xC000000000000002, 0x3CB0000000000000, 0xC00D64D51E0DB1C6, 0, 0xBCB0000000000000] := by
  decide +kernel

/-- 43_dct.md R195: the context binds the channel and the block. -/
theorem test_dct_binds_context : readReg (runWord 0x287 image32) .dctCtx = 0x202 := by decide +kernel

/-- Section 2.4, mutation: shape (2, 2), slice 1 2 3 4, the host adds 1.0 to COEF[0]. -/
theorem test_idct :
    words (.sba .y) 4 (runWord 8 (load .coef [0x4018000000000002]
        (runWord 7 (load (.sba .y) [0x3F800000, 0x40000000, 0x40400000, 0x40800000] (geom 4 4 4 4))))) =
      [0x3FC00000, 0x40200000, 0x40600000, 0x40900000] := by decide +kernel

/-- Section 2.5: matrix 3 0 / 0 4, the solver's answer of 44_svd.md R214's example. -/
def factors : SvdTriple :=
  { u := [0, 0x3FF0000000000000, 0x3FF0000000000000, 0], s := [0x4010000000000000, 0x4008000000000000],
    v := [0, 0x3FF0000000000000, 0x3FF0000000000000, 0] }

/-- COEF holds 3 0 / 0 4. -/
def matrix34 : State := load .coef [0x4008000000000000, 0, 0, 0x4010000000000000] (geom 4 4 4 4)

/-- 44_svd.md R211: that answer has the properties P1 to P4, and one with S not sorted has not. -/
theorem test_svd_admissible :
    svdAdmissible 2 2 (coefMatrix matrix34) factors = true ∧
      svdAdmissible 2 2 (coefMatrix matrix34) { factors with s := factors.s.reverse } = false := by decide +kernel

/-- 44_svd.md R212, R213: the flags after an answer and after `fail`. -/
theorem test_svd_flags :
    readReg (finishCommand (storeSvd (some factors) (flying 9 matrix34))) .status = 0x802 ∧
      readReg (finishCommand (storeSvd none (flying 9 matrix34))) .status = 0x00A := by decide +kernel

/-- Section 2.5: reconstruction with SVAL untouched, and with SVAL[0] = 5.0. -/
theorem test_isvd :
    words .coef 4 (runWord 0xA (storeSvd (some factors) matrix34)) = [0x4008000000000000, 0, 0, 0x4010000000000000] ∧
      words .coef 4 (runWord 0xA (load .sval [0x4014000000000000] (storeSvd (some factors) matrix34))) =
        [0x4008000000000000, 0, 0, 0x4014000000000000] := by decide +kernel

/-! ### Faults, access errors, reset: P3 and section 2.7 of 95_test_vectors.md -/

theorem test_fault_bad_img : report (after (.write 0x28 64 1) State.reset) = [0x004, 0x0000000100000002, 0] := by decide +kernel

theorem test_fault_pending :
    report (after (.write 0x28 64 3) (after (.write 0x28 64 1) State.reset)) = [0x014, 0x0000000100000002, 6] := by decide +kernel

theorem test_fault_blk_range :
    report (after (.write 0x28 64 0x207) (runWord 3 (geom 8 4 4 4))) = [0x104, 0x0000020700000005, 0] := by decide +kernel

theorem test_fault_bad_shape : report (after (.write 0x28 64 6) (geom 8 4 64 8)) = [0x004, 0x0000000600000003, 0] := by
  decide +kernel

theorem test_read_only_buffer :
    report (after (.write 0x78 64 5) (after (.write 0x68 64 8) State.reset)) = [0x010, 0, 4] := by decide +kernel

theorem test_bad_offset : report (after (.read 0x88 64) State.reset) = [0x010, 0, 5] := by decide +kernel

/-- Section 2.7: bits 63:40 of a PIXIN write are dropped. -/
theorem test_port_packs : words .pixin 1 (after (.write 0x78 64 0xFFFFFF1234567890) State.reset) = [0x1234567890] := by
  decide +kernel

/-- P3's end: a soft reset keeps BMAP and clears MAP_VALID. -/
theorem test_soft_reset_keeps_map :
    words .bmap 8 (after (.write 0x10 64 7) (runWord 3 (geom 8 4 4 4))) = [0, 1, 4, 5, 2, 3, 6, 7] ∧
      report (after (.write 0x10 64 7) (runWord 3 (geom 8 4 4 4))) = [0, 0, 0] := by decide +kernel

/-! ### The hypotheses of the statements can be met

One theorem per statement that has hypotheses, named after it: a state, or a list of states, that meets each clause's. -/

theorem test_witness_DecodeReadsEncodedCommand : (Instr.dct .u 16777215).wf = true := by decide +kernel

theorem test_witness_EncodeWritesDecodedWord : decode 0xFFFFFF47 = .ok (.dct .u 16777215) := by decide +kernel

/-- One word for each of the five reasons, the boundary values among them, in the low half of what the host writes. -/
theorem test_witness_IllegalWordsRaiseIllegalCmd :
    ∀ n ∈ [0x40, 0x0B, 0x3F, 0x41, 0x8000000A, 0x204, 0x80000005, 0xC4, 0x1C5, 0xFFFFFFC7],
      let w := BitVec.ofNat 32 n
      let opc := w.toNat % 64
      (opc = 0 ∨ 0x0B ≤ opc ∨ (opc ∈ [1, 2, 3, 6, 8, 9, 10] ∧ w.toNat / 64 ≠ 0) ∨
        (opc ∈ [4, 5] ∧ w.toNat / 512 ≠ 0) ∨ (opc ∈ [4, 5, 7] ∧ w.toNat / 64 % 4 = 3)) ∧
      BitVec.extractLsb' 0 32 (BitVec.ofNat 64 (n + 2 ^ 32)) = w ∧
      (events [.write 0x28 64 (BitVec.ofNat 64 n)] State.reset).events = .write 0x28 64 (BitVec.ofNat 64 n) :: [] ∧
      State.reset.status.busy = false ∧ State.reset.status.fault = false := by
  decide +kernel

/-- The engine with a command in flight and while idle, with no event and with its own pending. -/
theorem test_witness_StepRunsCommandInFlight :
    ((flying 0x145 image64).status.busy = true ∧ decode (flying 0x145 image64).curCmd = .ok (.idwt .u true) ∧
        (flying 0x145 image64).events = []) ∧
      (events [.complete] (flying 1 pixelsP1)).events = .complete :: [] ∧
      State.reset.status.busy = false ∧ State.reset.events = [] ∧ (events [.complete] State.reset).events = .complete :: [] := by
  decide +kernel

/-- While BUSY, while FAULT = 1, and ready, with a legal and with an illegal word. -/
theorem test_witness_PresentedWordIsDiscardedOrAccepted :
    (flying 1 pixelsP1).status.busy = true ∧
      ((refusedWith .badImg 1 State.reset).status.busy = false ∧ (refusedWith .badImg 1 State.reset).status.fault = true) ∧
      (State.reset.status.busy = false ∧ State.reset.status.fault = false) ∧
      decode (BitVec.extractLsb' 0 32 (0x145#64)) = .ok (.idwt .u true) ∧
      decode (BitVec.extractLsb' 0 32 (0xC4#64)) = .error .badChannel ∧
      (events [.write 0x28 64 0x145] State.reset).events = .write 0x28 64 0x145 :: [] := by decide +kernel

/-- W * H at MAXPIX exactly, and one row more. -/
theorem test_witness_ImageCommandsNeedLegalImage :
    ∀ s ∈ [geom 2048 2048 0 0, geom 2048 2049 0 0, State.reset], s.status.busy = false := by decide +kernel

theorem test_witness_WaveletCommandsNeedImageThenMap : ∀ s ∈ [image64, image33, State.reset], s.status.busy = false := by
  decide +kernel

/-- Block numbers at and below TOTBLK = 2, on a legal geometry. -/
theorem test_witness_DctNeedsImageThenShapeThenBlock :
    (geom 8 4 4 4).status.busy = false ∧ (geom 8 4 4 4).imgOk = true ∧ (geom 8 4 4 4).shapeOk = true ∧
      (geom 8 4 4 4).totBlk = 2 ∧ (∀ k ∈ [1, 2, 16777215], k < 2 ^ 24) ∧ (geom 8 4 33 4).shapeOk = false := by
  decide +kernel

/-- BW at BMAX exactly (32 requested), and one above; the valid flags set and clear. -/
theorem test_witness_ShapeAndValidFlagCommandsChecked :
    (∀ s ∈ [geom 8 4 32 4, geom 8 4 33 4, { State.reset with status := dctFlags (svdDoneFlags Status.reset) }],
        s.status.busy = false) ∧
      (geom 8 4 32 4).shapeOk = true ∧ (geom 8 4 33 4).shapeOk = false := by decide +kernel

/-- Every command fault; ILLEGAL_CMD is raised for an illegal word. -/
theorem test_witness_RaisedFaultChangesNothingElse :
    ∀ c ∈ [(Instr.mapgen, State.reset, CmdFault.badImg), (.dwt .u true, image33, .noMap), (.dct .v 2, geom 8 4 4 4, .blkRange),
        (.dctinit, geom 8 4 33 4, .badShape), (.idct, State.reset, .noDct), (.isvd, State.reset, .noSvd)],
      c.1.wf = true ∧ c.2.1.status.busy = false ∧ firstFault (acceptChecks c.2.1 c.1) = some c.2.2 ∧
        decode 0xC4 = .error .badChannel ∧ c.2.1.status.fault = false := by decide +kernel

theorem test_witness_StatusWriteClearsOnesOnly :
    (events [.write 0x18 64 0x12] (flying 1 pixelsP1)).events = .write 0x18 64 0x12 :: [] := by decide +kernel

theorem test_witness_Rgb2yuvWritesChannelsAndAlpha : (flying 1 pixelsP1).status.busy = true ∧ 3 < (flying 1 pixelsP1).pixels := by
  decide +kernel

theorem test_witness_Yuv2rgbWritesPixels : (flying 2 pixelsP1).status.busy = true ∧ 3 < (flying 2 pixelsP1).pixels := by
  decide +kernel

theorem test_witness_MapgenWritesBlockMap : (flying 3 (geom 9 9 6 3)).status.busy = true ∧ (flying 3 (geom 9 9 6 3)).waves = 25 := by
  decide +kernel

/-- DWT in flight with a BMAP that holds the map, a kernel inside the image, and an element no kernel is stored at. -/
theorem test_witness_DwtWritesSubbands :
    (flying 0x104 image64).status.busy = true ∧ MapLoaded (flying 0x104 image64) ∧ 2 * 2 < (flying 0x104 image64).width ∧
      2 * 1 < (flying 0x104 image64).height ∧
      ∀ k < (flying 0x104 image64).waves, ((flying 0x104 image64).elem .bmap k).toNat ≠ 6 := by
  unfold MapLoaded
  decide +kernel

theorem test_witness_IdwtWritesChannel : (flying 0x105 image64).status.busy = true ∧ 5 < (flying 0x105 image64).width := by
  decide +kernel

theorem test_witness_DctinitBuildsTensor : (flying 6 (geom 2 2 6 4)).status.busy = true ∧ (flying 6 (geom 2 2 6 4)).area = 6 := by
  decide +kernel

/-- DCT in flight without a matching tensor, and with one. -/
theorem test_witness_DctWritesCoefficients :
    ((flying 0x287 image32).status.busy = true ∧ (flying 0x287 image32).phiOk = false) ∧
      ((flying 0x287 (runWord 6 image32)).status.busy = true ∧ (flying 0x287 (runWord 6 image32)).phiOk = true) ∧
      2 < 2 ^ 24 := by decide +kernel

theorem test_witness_IdctWritesBoundBlock :
    (flying 8 (runWord 0x287 image32)).status.busy = true ∧ (flying 8 (runWord 0x287 image32)).area = 6 := by decide +kernel

theorem test_witness_SvdStoresFactorsOrReportsFailure : (flying 9 matrix34).status.busy = true := by decide +kernel

theorem test_witness_IsvdWritesReconstruction :
    (flying 0xA (storeSvd (some factors) matrix34)).status.busy = true ∧
      (flying 0xA (storeSvd (some factors) matrix34)).area = 4 := by decide +kernel

/-- A grid with whole blocks and both margins, and a cell of each of the three branches. -/
theorem test_witness_BlockMapIsBijection :
    (flying 3 (geom 9 9 6 3)).status.busy = true ∧ 24 < (flying 3 (geom 9 9 6 3)).waves ∧ 5 / 2 * 2 ≤ 4 ∧
      (2 < 5 / 2 * 2 ∧ 5 / 3 * 3 ≤ 3) ∧ (3 < 5 / 2 * 2 ∧ 2 < 5 / 3 * 3) := by decide +kernel

theorem test_witness_DerivedRegistersRead :
    ∀ off ∈ [0x00#8, 0x80], (events [.write off 64 5] State.reset).events = .write off 64 5 :: [] := by decide +kernel

theorem test_witness_BlockSlicesAreContiguous : 1 < 5 / 2 ∧ 0 < 5 / 3 ∧ 2 < 3 ∧ 1 < 2 := by decide +kernel

/-- The largest image of the default parameters, and a grid with margins. -/
theorem test_witness_MapAndBlockCountInRange :
    ∀ s ∈ [geom 2048 2048 0 0, geom 9 9 6 3], s.imgOk = true ∧ s.maxPix ≤ 2 ^ 26 := by decide +kernel

theorem test_witness_ImageAndShapeChecksGiveRoom :
    (geom 1 1 0 0).imgOk = true ∧ (geom 2048 2048 32 32).imgOk = true ∧ (geom 2048 2048 32 32).shapeOk = true := by decide +kernel

/-- A 5×5 channel with CHAN[i] = i and the map of its 3×3 grid of 2×2 blocks, DWT in flight: both extents odd, both margins. -/
def image55 : State :=
  flying 0x104 (load .bmap [0, 1, 4, 2, 3, 5, 6, 7, 8] ((geom 5 5 4 4).writeFrom32 (.chan .y) 0 25 fun i => f32OfU8 (BitVec.ofNat 8 i)))

theorem image55_finite : ∀ i < image55.width * image55.height, ∃ neg v,
    fp32 (image55.elem32 (.chan .y) i) = .fin neg v ∧ v < 2 ^ 270 := by
  have h : ∀ i < 25, fp32 (image55.elem32 (.chan .y) i) = .fin false (i * 2 ^ 149) := by decide +kernel
  have w : image55.width * image55.height = 25 := by decide +kernel
  intro i hi
  rw [w] at hi
  exact ⟨false, _, h i hi, lt_of_le_of_lt (Nat.mul_le_mul_right _ hi.le) (by decide +kernel)⟩

theorem image55_map : MapLoaded image55 := by
  unfold MapLoaded
  decide +kernel

theorem test_witness_EdgeReplicationZeroesDetails :
    fp32 0x40E00000 = .fin false (7 * 2 ^ 149) ∧ 7 * 2 ^ 149 < 2 ^ 276 ∧ image55.status.busy = true ∧ MapLoaded image55 ∧
      (∀ m, exec (.dwt .y m) image55 = .next (nextOf (exec (.dwt .y m) image55))) ∧
      (∀ i < image55.width * image55.height, ∃ neg v, fp32 (image55.elem32 (.chan .y) i) = .fin neg v ∧ v < 2 ^ 270) ∧
      image55.width % 2 = 1 ∧ image55.height % 2 = 1 :=
  ⟨by decide +kernel, by decide +kernel, by decide +kernel, image55_map, fun m => eq_nextOf (by cases m <;> decide +kernel),
    image55_finite, by decide +kernel, by decide +kernel⟩

/-- Two states that differ in another channel only, and a second channel. -/
theorem test_witness_ChannelsAreIndependent :
    effectDwt .y true ∈ [effectDwt .y true, effectIdwt .y true] ∧ Channel.u ≠ .y ∧
      Buf.bmap ∉ [Buf.chan .y, .sba .y, .sbh .y, .sbv .y, .sbd .y] ∧ image64 ≠ load (.chan .u) [1] image64 ∧
      image64.imgDim = (load (.chan .u) [1] image64).imgDim ∧
      ∀ b ∈ [Buf.chan .y, .sba .y, .sbh .y, .sbv .y, .sbd .y, .bmap], ∀ i, image64.elem b i = (load (.chan .u) [1] image64).elem b i := by
  refine ⟨by simp, by decide, by decide, by decide +kernel, by decide +kernel, fun b hb i => ?_⟩
  exact (State.elem_writeFrom_other _ (by intro h; subst h; exact absurd hb (by decide)) _ _ _ _).symm

/-- The two runs of the colour round trip on P1's image: AlphaSurvivesColourRoundTrip and ColourRoundTripWithinTolerance. -/
theorem test_witness_ColourRoundTrip :
    (flying 1 pixelsP1).status.busy = true ∧
      exec .rgb2yuv (flying 1 pixelsP1) = .next (nextOf (exec .rgb2yuv (flying 1 pixelsP1))) ∧
      exec .yuv2rgb (latched 0x2 (nextOf (exec .rgb2yuv (flying 1 pixelsP1)))) =
        .next (nextOf (exec .yuv2rgb (latched 0x2 (nextOf (exec .rgb2yuv (flying 1 pixelsP1)))))) ∧
      3 < (flying 1 pixelsP1).width * (flying 1 pixelsP1).height :=
  ⟨by decide +kernel, eq_nextOf (by decide +kernel), eq_nextOf (by decide +kernel), by decide +kernel⟩

/-- 255 exactly, the next value above, and a negative one. -/
theorem test_witness_ClipSixteenStaysInRange :
    (fp32 0x437F0000 = .fin false (255 * 2 ^ 149) ∧ 255 * 2 ^ 149 ≤ 255 * 2 ^ 149) ∧
      (fp32 0x437F0001 = .fin false (255 * 2 ^ 149 + 2 ^ 133) ∧ 255 * 2 ^ 149 < 255 * 2 ^ 149 + 2 ^ 133) ∧
      fp32 0x80000001 = .fin true 1 := by decide +kernel

/-- A slice of zeros of both signs, and the finite tensor DCT leaves. -/
def zeroBlock : State := flying 0x107 (((geom 8 4 4 4).writeFrom32 (.sba .y) 4 4 fun n => if n % 2 = 0 then 0 else 0x80000000))

theorem test_witness_ZeroBlockGivesZeroCoefficients :
    zeroBlock.status.busy = true ∧ exec (.dct .y 1) zeroBlock = .next (nextOf (exec (.dct .y 1) zeroBlock)) ∧
      (∀ n < zeroBlock.bw * zeroBlock.bh, ∃ neg,
        fp32 (zeroBlock.elem32 (.sba .y) (1 * (zeroBlock.bw * zeroBlock.bh) + n)) = .fin neg 0) ∧
      (∀ n < (zeroBlock.bw * zeroBlock.bh) ^ 2, finite64 ((nextOf (exec (.dct .y 1) zeroBlock)).elem .phi n) = true) :=
  ⟨by decide +kernel, eq_nextOf (by decide +kernel), by decide +kernel, by decide +kernel⟩

/-- SVD in flight on a finite matrix of small elements. -/
theorem test_witness_SvdLeavesAdmissibleFactors :
    (flying 9 matrix34).status.busy = true ∧
      ∀ n < (flying 9 matrix34).bw * (flying 9 matrix34).bh,
        finite64 ((flying 9 matrix34).elem .coef n) = true ∧ |ratOfF64 ((flying 9 matrix34).elem .coef n)| ≤ 16384 :=
  ⟨by decide +kernel, by decide +kernel⟩

/-- DWT then IDWT on the 5×5 image, with and without the map. -/
theorem test_witness_WaveletRoundTripWithinTolerance :
    image55.status.busy = true ∧ image55.imgOk = true ∧ MapLoaded image55 ∧
      (∀ i < image55.width * image55.height, ∃ neg v, fp32 (image55.elem32 (.chan .y) i) = .fin neg v ∧ v < 2 ^ 270) ∧
      ∀ m, exec (.dwt .y m) image55 = .next (nextOf (exec (.dwt .y m) image55)) ∧
        exec (.idwt .y m) (latched (encode (.idwt .y m)) (nextOf (exec (.dwt .y m) image55))) =
          .next (nextOf (exec (.idwt .y m) (latched (encode (.idwt .y m)) (nextOf (exec (.dwt .y m) image55))))) :=
  ⟨by decide +kernel, by decide +kernel, image55_map, image55_finite,
    fun m => ⟨eq_nextOf (by cases m <;> decide +kernel), eq_nextOf (by cases m <;> decide +kernel)⟩⟩

/-- A value inside each format's range and one that overflows it. -/
theorem test_witness_RoundingIsToNearestEven :
    ∀ F ∈ [binary32, binary64], 0 < 3 ∧ roundUnits F 7 3 < infBits F ∧ 2 < infBits F ∧
      roundUnits F (2 ^ 2100) 1 = infBits F := by decide +kernel

theorem test_witness_WideningIsExact :
    fp32 0x80000001 = .fin true 1 ∧ fp32 0xFF800000 = .inf true ∧ fp32 0x7F7FFFFF ≠ .nan := by decide +kernel

theorem test_witness_InvalidOperationsGiveQuietNan :
    fp32 0x7F800001 = .nan ∧ fp64 0xFFF0000000000001 = .nan ∧ fp32 0x7F800000 = .inf false ∧ fp32 0xFF800000 = .inf true ∧
      fp32 0x80000000 = .fin true 0 ∧ fp64 0x7FF0000000000000 = .inf false ∧ fp64 0xFFF0000000000000 = .inf true ∧
      fp64 0 = .fin false 0 ∧ add32 ∈ [add32, sub32, mul32, div32] ∧ mul64 ∈ [add64, mul64] := by
  refine ⟨by decide +kernel, by decide +kernel, by decide +kernel, by decide +kernel, by decide +kernel, by decide +kernel,
    by decide +kernel, by decide +kernel, by simp, by simp⟩

/-- The first and the last register of the window. -/
theorem test_witness_RegisterReadsHaveNoSideEffect :
    regAt 0 = some .id ∧ regAt 0x80 = some .accInfo ∧ Reg.accInfo ≠ .bufData ∧
      (events [.read 0x80 64] State.reset).events = .read 0x80 64 :: [] := by decide +kernel

/-- A narrow access to a register, a full one beside it, at both ends of the offsets, and full ones where no register is. -/
theorem test_witness_MisalignedAccessesAreRefused :
    (∀ a ∈ [(0x00#8, 32), (0x80, 128), (0x01, 64), (0xFF, 64), (0x84, 64), (0x88, 64), (0xF8, 64)],
        a.2 ≠ 64 ∨ a.1.toNat % 8 ≠ 0 ∨ 0x88 ≤ a.1.toNat) ∧
      (events [.read 0xFF 64] State.reset).events = .read 0xFF 64 :: [] ∧
      (events [.write 0x01 64 5] State.reset).events = .write 0x01 64 5 :: [] := by decide +kernel

/-- BUFSEL, BUFIDX set. -/
def port (buf : BitVec 4) (ch : BitVec 2) (idx : BitVec 32) : State :=
  { State.reset with bufSel := { buf := buf, ch := ch }, bufIdx := idx }

/-- BufferPortReads and BufferPortWrites: BUSY; an illegal selection; at capacity and just below it (COEF: 256);
read-only buffers. -/
theorem test_witness_BufferPort :
    (flying 1 pixelsP1).status.busy = true ∧ selectBuf (port 12 0 0).bufSel = none ∧ selectBuf (port 7 3 0).bufSel = none ∧
      (∀ s ∈ [port 12 0 0, port 9 0 256, port 9 0 255, port 8 0 0], s.status.busy = false) ∧
      selectBuf (port 9 3 255).bufSel = some .coef ∧ (port 9 3 255).bufIdx.toNat < (port 9 3 255).capacity .coef ∧
      (port 9 0 256).capacity .coef ≤ (port 9 0 256).bufIdx.toNat ∧ selectBuf (port 8 0 0).bufSel = some .bmap ∧
      selectBuf (port 11 0 0).bufSel = some .phi := by decide +kernel

theorem test_witness_PortWriteReadsBack :
    (port 7 2 4194303).status.busy = false ∧ selectBuf (port 7 2 4194303).bufSel = some (.sbd .v) ∧
      (port 7 2 4194303).bufIdx.toNat < (port 7 2 4194303).capacity (.sbd .v) ∧
      BitVec.extractLsb' 0 32 (4194303#64) = (port 7 2 4194303).bufIdx := by decide +kernel

theorem test_witness_GeometryWritesClearValidFlags :
    (flying 1 pixelsP1).status.busy = true ∧ image64.status.busy = false ∧ image64.status.mapValid = true ∧
      (events [.write 0x38 64 0x00040004] image64).events = .write 0x38 64 0x00040004 :: [] ∧
      (events [.write 0x70 64 0xFFFFFFFFFF] image64).events = .write 0x70 64 0xFFFFFFFFFF :: [] := by decide +kernel

theorem test_witness_BusyEngineRefusesAccesses :
    (flying 1 pixelsP1).status.busy = true ∧ (events [.read 0x78 64] (flying 1 pixelsP1)).events = .read 0x78 64 :: [] := by
  decide +kernel

theorem test_witness_FirstAccessErrorIsKept :
    State.reset.status.accErr = false ∧ (flagAccErr .busy State.reset).status.accErr = true ∧
      BitVec.getLsbD (0x10#64) 4 = true := by decide +kernel

theorem test_witness_InterruptLineFollowsEnables :
    (events [.write 0x10 64 0x6] (runWord 1 pixelsP1)).events = .write 0x10 64 0x6 :: [] ∧ BitVec.getLsbD (0x6#64) 0 = false ∧
      (runWord 1 pixelsP1).status.done = true := by decide +kernel

/-- A soft reset while idle, and with RGB2YUV in flight. -/
theorem test_witness_SoftResetKeepsBuffers :
    (∀ s ∈ [events [.write 0x10 64 1] pixelsP1, events [.write 0x10 64 1] (flying 1 pixelsP1)],
        Memory.wf s = true ∧ s.events = .write 0x10 64 1 :: []) ∧
      (flying 1 pixelsP1).status.busy = true ∧ inFlightWrites (flying 1 pixelsP1) ≠ [] ∧ BitVec.getLsbD (1#64) 0 = true := by
  decide +kernel

theorem test_witness_HardResetLeavesResetState :
    (events [.hardReset] (flying 1 pixelsP1)).events = .hardReset :: [] := by decide +kernel

/-- A command in flight that was accepted, in a state with every valid flag set. -/
def soundState : State :=
  let s := storeSvd (some factors) (runWord 7 (runWord 3 (geom 8 4 4 4)))
  nextOf (exec (.dwt .y true) { s with status := { s.status with fault := false } })

theorem test_witness_StepKeepsControlSound :
    ControlSound soundState ∧ soundState.status.busy = true ∧ readReg soundState .status = 0xF01 ∧
      step soundState = .next (nextOf (step soundState)) := by
  refine ⟨⟨?_, fun _ => ⟨.dwt .y true, rfl, ?_, ?_⟩, ?_⟩, by decide +kernel, by decide +kernel, eq_nextOf (by decide +kernel)⟩
  · unfold FlagsCoherent
    decide +kernel
  · decide +kernel
  · decide +kernel
  · unfold GeometryBound
    decide +kernel

theorem test_witness_StepKeepsMemoryCanonical :
    Memory.wf soundState = true ∧ soundState.coef ≠ [] ∧ step soundState = .next (nextOf (step soundState)) :=
  ⟨by decide +kernel, by decide +kernel, eq_nextOf (by decide +kernel)⟩

theorem test_witness_StepKeepsMapSound :
    MapSound soundState ∧ soundState.status.mapValid = true ∧ step soundState = .next (nextOf (step soundState)) := by
  refine ⟨fun _ => ?_, by decide +kernel, eq_nextOf (by decide +kernel)⟩
  unfold MapLoaded
  decide +kernel

theorem test_witness_StepKeepsTensorSound :
    TensorSound soundState ∧ soundState.status.phiValid = true ∧ step soundState = .next (nextOf (step soundState)) :=
  ⟨fun _ => by decide +kernel, by decide +kernel, eq_nextOf (by decide +kernel)⟩

theorem test_witness_EngineNeverStops : ControlSound soundState := test_witness_StepKeepsControlSound.1

theorem test_witness_ParametersNeverChange :
    ParametersLegal soundState ∧ step soundState = .next (nextOf (step soundState)) :=
  ⟨by unfold ParametersLegal; decide +kernel, eq_nextOf (by decide +kernel)⟩

/-- Commands whose checks hold in a state with every valid flag set, and the one in flight there. -/
theorem test_witness_AcceptedWritesStayInCapacity :
    (GeometryBound soundState ∧
        ∀ i ∈ [Instr.dct .v 1, .idct, .isvd, .dwt .y true], firstFault (acceptChecks soundState i) = none) ∧
      ControlSound soundState ∧ MapSound soundState ∧ soundState.status.busy = true ∧
      decode soundState.curCmd = .ok (.dwt .y true) ∧
      exec (.dwt .y true) soundState = .next (nextOf (exec (.dwt .y true) soundState)) :=
  ⟨by unfold GeometryBound; decide +kernel, test_witness_StepKeepsControlSound.1, test_witness_StepKeepsMapSound.1,
    by decide +kernel, by decide +kernel, eq_nextOf (by decide +kernel)⟩

end Sys2Proof.Tests
end

section
/-! SUPPORT. The one rounding of the arithmetic, the exact widening, and the NaN results (00_scope.md R10, R14, R15): the
magnitudes as a grid of patterns, the patterns below and above a rational, reading a pattern back, and the statements O39,
O40 and O41. -/

namespace Sys2Proof.Machine

/-! ### The grid of magnitudes -/

/-- The format has at least one fraction bit, so a significand's last bit is its pattern's. -/
theorem even_two_pow_fracBits {F : Format} (hF : 0 < F.fracBits) : 2 ^ F.fracBits % 2 = 0 := by
  obtain ⟨n, hn⟩ := Nat.exists_eq_succ_of_ne_zero hF.ne'
  rw [hn, pow_succ, Nat.mul_mod_left]

/-- The significand `n` at a last place of `2 ^ k` units has the pattern `k * 2 ^ fracBits + n`: subnormals at `k = 0`, and a
significand of `2 ^ (fracBits + 1)` carries into the exponent. -/
theorem magnitudeUnits_place (F : Format) {k n : Nat} (hn : n ≤ 2 * 2 ^ F.fracBits) (hk : k = 0 ∨ 2 ^ F.fracBits ≤ n) :
    magnitudeUnits F (k * 2 ^ F.fracBits + n) = n * 2 ^ k := by
  unfold magnitudeUnits unitsOf
  have hM : 0 < 2 ^ F.fracBits := by positivity
  generalize 2 ^ F.fracBits = M at *
  rw [mul_comm k M, Nat.mul_add_div hM, Nat.mul_add_mod]
  rcases Nat.lt_or_ge n M with hlt | hge
  · obtain rfl : k = 0 := by omega
    simp [Nat.div_eq_of_lt hlt, Nat.mod_eq_of_lt hlt]
  · obtain ⟨d, rfl⟩ := Nat.exists_eq_add_of_le hge
    rcases Nat.lt_or_ge d M with hd | hd
    · have hq : (M + d) / M = 1 := by rw [Nat.add_div_left _ hM, Nat.div_eq_of_lt hd]
      rw [hq, Nat.add_mod_left, Nat.mod_eq_of_lt hd]
      simp
    · obtain rfl : d = M := by omega
      have hq : (d + d) / d = 2 := by rw [Nat.add_div_left _ hM, Nat.div_self hM]
      rw [hq, Nat.add_mod_left, Nat.mod_self]
      simp [pow_succ]
      ring

/-- Every magnitude pattern is a significand at a last place. -/
theorem exists_place (F : Format) (p : Nat) :
    ∃ k n, p = k * 2 ^ F.fracBits + n ∧ n < 2 * 2 ^ F.fracBits ∧ (k = 0 ∨ 2 ^ F.fracBits ≤ n) := by
  have hM : 0 < 2 ^ F.fracBits := by positivity
  have hp := Nat.div_add_mod p (2 ^ F.fracBits)
  have hr := Nat.mod_lt p hM
  rcases Nat.eq_zero_or_pos (p / 2 ^ F.fracBits) with h0 | hpos
  · exact ⟨0, p, by simp, by rw [h0] at hp; omega, .inl rfl⟩
  · obtain ⟨k, hk⟩ := Nat.exists_eq_succ_of_ne_zero hpos.ne'
    refine ⟨k, 2 ^ F.fracBits + p % 2 ^ F.fracBits, ?_, by omega, .inr (Nat.le_add_right _ _)⟩
    rw [hk, mul_comm, Nat.succ_mul] at hp
    omega

/-- A greater pattern is a greater magnitude. -/
theorem magnitudeUnits_strictMono (F : Format) : StrictMono (magnitudeUnits F) := by
  refine strictMono_nat_of_lt_succ fun p => ?_
  obtain ⟨k, n, rfl, hn, hk⟩ := exists_place F p
  rw [magnitudeUnits_place F hn.le hk, add_assoc, magnitudeUnits_place F hn (hk.imp_right Nat.le_succ_of_le)]
  exact Nat.mul_lt_mul_of_pos_right n.lt_succ_self (by positivity)

/-! ### The pattern below a rational, and the one rounding -/

/-- The last place of the rounded `num / den` is `2 ^ lastPlace` units. -/
def lastPlace (F : Format) (num den : Nat) : Nat := (num / den).log2 - F.fracBits

/-- The greatest magnitude pattern, the exponent unbounded, of at most `num / den` units. -/
def floorPattern (F : Format) (num den : Nat) : Nat :=
  lastPlace F num den * 2 ^ F.fracBits + num / (den * 2 ^ lastPlace F num den)

/-- The pattern `num / den` is rounded to before it is cut off at infinity's. -/
def roundPattern (F : Format) (num den : Nat) : Nat :=
  lastPlace F num den * 2 ^ F.fracBits + roundHalfEven num (den * 2 ^ lastPlace F num den)

theorem roundUnits_eq_min (F : Format) (num den : Nat) :
    roundUnits F num den = min (infBits F) (roundPattern F num den) := rfl

/-- The significand of `num / den` at its last place fits the format, and is normal above the lowest place. -/
theorem significand_bounds (F : Format) (num den : Nat) :
    num / (den * 2 ^ lastPlace F num den) < 2 * 2 ^ F.fracBits ∧
      (lastPlace F num den = 0 ∨ 2 ^ F.fracBits ≤ num / (den * 2 ^ lastPlace F num den)) := by
  rw [← Nat.div_div_eq_div_mul]
  have hdef : lastPlace F num den = (num / den).log2 - F.fracBits := rfl
  generalize lastPlace F num den = k at *
  generalize num / den = q at *
  have hq : q < 2 ^ (q.log2 + 1) := Nat.lt_log2_self
  constructor
  · rw [Nat.div_lt_iff_lt_mul (by positivity), ← pow_succ', ← pow_add]
    exact lt_of_lt_of_le hq (Nat.pow_le_pow_right (by omega) (by omega))
  · rcases Nat.eq_zero_or_pos k with h0 | hpos
    · exact .inl h0
    · right
      rw [Nat.le_div_iff_mul_le (by positivity), ← pow_add, show F.fracBits + k = q.log2 by omega]
      exact Nat.log2_self_le (by rintro rfl; simp at hdef; omega)

theorem floorPattern_units (F : Format) (num den : Nat) :
    magnitudeUnits F (floorPattern F num den) =
      num / (den * 2 ^ lastPlace F num den) * 2 ^ lastPlace F num den := by
  obtain ⟨hlt, hk⟩ := significand_bounds F num den
  exact magnitudeUnits_place F hlt.le hk

theorem succ_floorPattern_units (F : Format) (num den : Nat) :
    magnitudeUnits F (floorPattern F num den + 1) =
      (num / (den * 2 ^ lastPlace F num den) + 1) * 2 ^ lastPlace F num den := by
  obtain ⟨hlt, hk⟩ := significand_bounds F num den
  exact magnitudeUnits_place F hlt (hk.imp_right Nat.le_succ_of_le)

theorem floorPattern_mod_two {F : Format} (hF : 0 < F.fracBits) (num den : Nat) :
    floorPattern F num den % 2 = num / (den * 2 ^ lastPlace F num den) % 2 := by
  rw [floorPattern, Nat.add_mod, Nat.mul_mod, even_two_pow_fracBits hF]
  simp

/-- The pattern below is kept, or the next one taken: past half a last place, and in a tie where the pattern below is odd. -/
theorem roundPattern_eq (F : Format) (num den : Nat) :
    roundPattern F num den =
      if den * 2 ^ lastPlace F num den < 2 * (num % (den * 2 ^ lastPlace F num den)) ∨
          (2 * (num % (den * 2 ^ lastPlace F num den)) = den * 2 ^ lastPlace F num den ∧
            num / (den * 2 ^ lastPlace F num den) % 2 = 1)
      then floorPattern F num den + 1 else floorPattern F num den := by
  simp only [roundPattern, roundHalfEven, floorPattern]
  split_ifs <;> rfl

/-- What rounding can do: with `low` and `high` the magnitudes of the pattern below and the next one, `num / den` lies between
them, and the nearer is taken, in a tie the one with an even pattern. -/
theorem roundPattern_cases {F : Format} (hF : 0 < F.fracBits) (num : Nat) {den : Nat} (hd : 0 < den) :
    let g := floorPattern F num den
    let low := magnitudeUnits F g * den
    let high := magnitudeUnits F (g + 1) * den
    low ≤ num ∧ num < high ∧
      ((roundPattern F num den = g ∧ 2 * num ≤ low + high ∧ (2 * num = low + high → g % 2 = 0)) ∨
       (roundPattern F num den = g + 1 ∧ low + high ≤ 2 * num ∧ (2 * num = low + high → g % 2 = 1))) := by
  intro g low high
  have hS : 0 < den * 2 ^ lastPlace F num den := by positivity
  have hlow : low = den * 2 ^ lastPlace F num den * (num / (den * 2 ^ lastPlace F num den)) := by
    simp only [low, g, floorPattern_units]; ring
  have hhigh : high = low + den * 2 ^ lastPlace F num den := by
    rw [hlow]; simp only [high, g, succ_floorPattern_units]; ring
  have hg : g % 2 = num / (den * 2 ^ lastPlace F num den) % 2 := floorPattern_mod_two hF num den
  have hdm := Nat.div_add_mod num (den * 2 ^ lastPlace F num den)
  have hml := Nat.mod_lt num hS
  rw [← hlow] at hdm
  rw [roundPattern_eq]
  split_ifs with hc <;> omega

/-- The rounded pattern is nearest among all magnitude patterns, and even where another one is as near. -/
theorem roundPattern_nearest {F : Format} (hF : 0 < F.fracBits) (num : Nat) {den : Nat} (hd : 0 < den) (p : Nat) :
    distance (magnitudeUnits F (roundPattern F num den) * den) num ≤ distance (magnitudeUnits F p * den) num ∧
      (distance (magnitudeUnits F (roundPattern F num den) * den) num = distance (magnitudeUnits F p * den) num →
        p ≠ roundPattern F num den → roundPattern F num den % 2 = 0) := by
  have hmono {a b : Nat} (h : a < b) : magnitudeUnits F a * den < magnitudeUnits F b * den :=
    Nat.mul_lt_mul_of_pos_right (magnitudeUnits_strictMono F h) hd
  obtain ⟨hlow, hhigh, hcases⟩ := roundPattern_cases hF num hd
  have below : p < floorPattern F num den →
      magnitudeUnits F p * den < magnitudeUnits F (floorPattern F num den) * den := hmono
  have above : floorPattern F num den + 1 < p →
      magnitudeUnits F (floorPattern F num den + 1) * den < magnitudeUnits F p * den := hmono
  have hp : p < floorPattern F num den ∨ p = floorPattern F num den ∨ p = floorPattern F num den + 1 ∨
      floorPattern F num den + 1 < p := by omega
  unfold distance
  rcases hcases with ⟨hr, hhalf, htie⟩ | ⟨hr, hhalf, htie⟩
  · rw [hr]
    rcases hp with hp | rfl | rfl | hp <;> omega
  · rw [hr]
    rcases hp with hp | rfl | rfl | hp <;> omega

/-- An odd pattern and the next one are parted at their midpoint, which goes up. -/
theorem lt_roundPattern_iff {F : Format} (hF : 0 < F.fracBits) (num : Nat) {den : Nat} (hd : 0 < den) {p : Nat}
    (hp : p % 2 = 1) :
    p < roundPattern F num den ↔ (magnitudeUnits F p + magnitudeUnits F (p + 1)) * den ≤ 2 * num := by
  have hmono {a b : Nat} (h : a ≤ b) : magnitudeUnits F a * den ≤ magnitudeUnits F b * den :=
    Nat.mul_le_mul_right den ((magnitudeUnits_strictMono F).monotone h)
  obtain ⟨hlow, hhigh, hcases⟩ := roundPattern_cases hF num hd
  rw [Nat.add_mul]
  rcases lt_trichotomy p (floorPattern F num den) with hlt | rfl | hgt
  · have hp0 := hmono hlt.le
    have hp1 := hmono (Nat.succ_le_of_lt hlt)
    simp only [Nat.succ_eq_add_one] at hp1
    omega
  · omega
  · have hp0 := hmono (Nat.succ_le_of_lt hgt)
    have hp1 := hmono p.le_succ
    simp only [Nat.succ_eq_add_one] at hp0 hp1
    omega

/-- A magnitude of the format rounds to its own pattern. -/
theorem roundPattern_magnitudeUnits {F : Format} (hF : 0 < F.fracBits) (p : Nat) {den : Nat} (hd : 0 < den) :
    roundPattern F (magnitudeUnits F p * den) den = p := by
  obtain ⟨hle, -⟩ := roundPattern_nearest hF (magnitudeUnits F p * den) hd p
  have heq : magnitudeUnits F (roundPattern F (magnitudeUnits F p * den) den) * den = magnitudeUnits F p * den := by
    unfold distance at hle
    omega
  exact (magnitudeUnits_strictMono F).injective (Nat.eq_of_mul_eq_mul_right hd heq)

theorem roundUnits_magnitudeUnits {F : Format} (hF : 0 < F.fracBits) {p den : Nat} (hp : p ≤ infBits F) (hd : 0 < den) :
    roundUnits F (magnitudeUnits F p * den) den = p := by
  rw [roundUnits_eq_min, roundPattern_magnitudeUnits hF p hd, min_eq_right hp]

/-! ### The largest finite value -/

/-- Infinity's pattern, read as a magnitude, is the power of two after the largest finite value. -/
theorem magnitudeUnits_infBits {F : Format} (hE : 1 < F.expBits) :
    magnitudeUnits F (infBits F) = 2 ^ (1 + F.fracBits + (2 ^ F.expBits - 3)) := by
  have h4 : 2 ^ 2 ≤ 2 ^ F.expBits := Nat.pow_le_pow_right (by omega) hE
  have hinf : infBits F = (2 ^ F.expBits - 3) * 2 ^ F.fracBits + 2 * 2 ^ F.fracBits := by
    rw [infBits, ← Nat.add_mul]
    congr 1
    omega
  rw [hinf, magnitudeUnits_place F le_rfl (.inr (by omega)), pow_add, pow_add, pow_one]

/-- The largest finite value: a significand of ones at the highest last place. -/
theorem magnitudeUnits_largest {F : Format} (hE : 1 < F.expBits) :
    magnitudeUnits F (infBits F - 1) = (2 * 2 ^ F.fracBits - 1) * 2 ^ (2 ^ F.expBits - 3) := by
  have h4 : 2 ^ 2 ≤ 2 ^ F.expBits := Nat.pow_le_pow_right (by omega) hE
  have hM : 0 < 2 ^ F.fracBits := by positivity
  have hinf : infBits F - 1 = (2 ^ F.expBits - 3) * 2 ^ F.fracBits + (2 * 2 ^ F.fracBits - 1) := by
    rw [infBits, ← Nat.add_sub_assoc (by omega), ← Nat.add_mul]
    congr 2
    omega
  rw [hinf, magnitudeUnits_place F (by omega) (.inr (by omega))]

theorem infBits_pos {F : Format} (hE : 1 < F.expBits) : 0 < infBits F :=
  Nat.mul_pos (Nat.sub_pos_of_lt (Nat.one_lt_two_pow (by omega))) (by positivity)

theorem infBits_mod_two {F : Format} (hF : 0 < F.fracBits) : infBits F % 2 = 0 := by
  rw [infBits, Nat.mul_mod, even_two_pow_fracBits hF, mul_zero, Nat.zero_mod]

/-- Overflow begins half a last place above the largest finite value. -/
theorem roundUnits_eq_infBits_iff {F : Format} (hF : 0 < F.fracBits) (hE : 1 < F.expBits) (num : Nat) {den : Nat}
    (hd : 0 < den) :
    roundUnits F num den = infBits F ↔ (2 ^ (F.fracBits + 2) - 1) * 2 ^ (2 ^ F.expBits - 4) * den ≤ num := by
  have hpos := infBits_pos hE
  have heven := infBits_mod_two hF
  have h4 : 2 ^ 2 ≤ 2 ^ F.expBits := Nat.pow_le_pow_right (by omega) hE
  have hmid : magnitudeUnits F (infBits F - 1) + magnitudeUnits F (infBits F - 1 + 1) =
      2 * ((2 ^ (F.fracBits + 2) - 1) * 2 ^ (2 ^ F.expBits - 4)) := by
    have hM : 0 < 2 ^ F.fracBits := by positivity
    rw [Nat.sub_add_cancel hpos, magnitudeUnits_largest hE, magnitudeUnits_infBits hE, pow_add, pow_add, pow_one,
      ← Nat.add_mul,
      show 2 ^ F.expBits - 3 = 2 ^ F.expBits - 4 + 1 by omega, pow_succ 2 (2 ^ F.expBits - 4), mul_comm _ 2,
      Nat.mul_left_comm, pow_add]
    congr 2
    omega
  rw [roundUnits_eq_min, min_eq_left_iff]
  calc infBits F ≤ roundPattern F num den ↔ infBits F - 1 < roundPattern F num den := by omega
    _ ↔ _ := lt_roundPattern_iff hF num hd (by omega)
    _ ↔ _ := by rw [hmid, mul_assoc]; omega

/-- Settles O39: within range the nearest pattern is the uncut one's, and infinity begins at the last midpoint. -/
theorem roundingIsToNearestEven : Obligations.RoundingIsToNearestEven := by
  intro F hF num den hd
  obtain ⟨hfrac, hexp⟩ : 0 < F.fracBits ∧ 1 < F.expBits := by
    rcases List.mem_pair.mp hF with rfl | rfl <;> simp
  refine ⟨fun hlt p _ => ?_, roundUnits_eq_infBits_iff hfrac hexp num hd⟩
  have huncut : roundUnits F num den = roundPattern F num den := by
    rw [roundUnits_eq_min] at hlt ⊢
    omega
  rw [huncut]
  exact roundPattern_nearest hfrac num hd p

/-! ### Reading a pattern back -/

theorem infBits_lt_signWeight (F : Format) : infBits F < signWeight F := by
  rw [infBits, signWeight, pow_add, mul_comm]
  exact Nat.mul_lt_mul_of_pos_left (Nat.sub_lt (by positivity) one_pos) (by positivity)

/-- Every pattern is a sign and a magnitude. -/
theorem exists_packSign (F : Format) {bits : Nat} (h : bits < 2 * signWeight F) :
    ∃ neg p, p < signWeight F ∧ bits = packSign F neg p := by
  rcases Nat.lt_or_ge bits (signWeight F) with hlt | hge
  · exact ⟨false, bits, hlt, rfl⟩
  · exact ⟨true, bits - signWeight F, by omega, by simp [packSign]; omega⟩

/-- The exponent field of a sign and a magnitude is the magnitude's. -/
theorem packSign_exponent (F : Format) (neg : Bool) {p : Nat} (hp : p < signWeight F) :
    packSign F neg p / 2 ^ F.fracBits % 2 ^ F.expBits = p / 2 ^ F.fracBits := by
  have hlt : p / 2 ^ F.fracBits < 2 ^ F.expBits := Nat.div_lt_of_lt_mul (by rwa [signWeight, pow_add] at hp)
  cases neg with
  | false => exact Nat.mod_eq_of_lt hlt
  | true =>
    rw [packSign, if_pos rfl, signWeight, pow_add, Nat.mul_add_div (by positivity), Nat.add_mod_left, Nat.mod_eq_of_lt hlt]

/-- The fraction field of a sign and a magnitude is the magnitude's. -/
theorem packSign_fraction (F : Format) (neg : Bool) (p : Nat) :
    packSign F neg p % 2 ^ F.fracBits = p % 2 ^ F.fracBits := by
  cases neg with
  | false => rfl
  | true => rw [packSign, if_pos rfl, signWeight, pow_add, Nat.mul_add_mod]

theorem packSign_sign (F : Format) (neg : Bool) {p : Nat} (hp : p < signWeight F) :
    decide (packSign F neg p / signWeight F % 2 = 1) = neg := by
  cases neg with
  | false => simp [packSign, Nat.div_eq_of_lt hp]
  | true => simp [packSign, Nat.add_div_left p (Nat.zero_lt_of_lt hp), Nat.div_eq_of_lt hp]

/-- A magnitude from infinity's pattern on, with its sign, reads back as the infinity, or as a NaN. -/
theorem unpackFp_packSign_of_infBits_le (F : Format) (neg : Bool) {p : Nat} (hp : p < signWeight F) (hinf : infBits F ≤ p) :
    unpackFp F (packSign F neg p) = if p = infBits F then .inf neg else .nan := by
  obtain ⟨f, rfl⟩ := Nat.exists_eq_add_of_le hinf
  have hM : 0 < 2 ^ F.fracBits := by positivity
  have hE : 0 < 2 ^ F.expBits := by positivity
  have hf : f < 2 ^ F.fracBits := by
    have : infBits F + 2 ^ F.fracBits = signWeight F := by
      rw [infBits, signWeight, pow_add, ← Nat.succ_mul, Nat.succ_eq_add_one, Nat.sub_add_cancel hE, mul_comm]
    omega
  have he : (infBits F + f) / 2 ^ F.fracBits = 2 ^ F.expBits - 1 := by
    rw [infBits, mul_comm, Nat.mul_add_div hM, Nat.div_eq_of_lt hf, Nat.add_zero]
  have hr : (infBits F + f) % 2 ^ F.fracBits = f := by
    rw [infBits, mul_comm, Nat.mul_add_mod, Nat.mod_eq_of_lt hf]
  simp [unpackFp, packSign_exponent F neg hp, packSign_fraction, packSign_sign F neg hp, he, hr]

theorem unpackFp_packSign_infBits (F : Format) (neg : Bool) : unpackFp F (packSign F neg (infBits F)) = .inf neg := by
  rw [unpackFp_packSign_of_infBits_le F neg (infBits_lt_signWeight F) le_rfl, if_pos rfl]

/-- A pattern that reads as a finite value is its sign with the magnitude of its units. -/
theorem eq_packSign_of_unpackFp_fin {F : Format} {bits m : Nat} {neg : Bool} (h : bits < 2 * signWeight F)
    (hfin : unpackFp F bits = .fin neg m) : ∃ p < infBits F, bits = packSign F neg p ∧ magnitudeUnits F p = m := by
  obtain ⟨neg', p, hp, rfl⟩ := exists_packSign F h
  rcases Nat.lt_or_ge p (infBits F) with hlt | hge
  · rw [unpackFp_packSign F neg' hlt] at hfin
    obtain ⟨rfl, hm⟩ := Fp.fin.inj hfin
    exact ⟨p, hlt, rfl, hm⟩
  · rw [unpackFp_packSign_of_infBits_le F neg' hp hge] at hfin
    split at hfin <;> contradiction

/-- A pattern that reads as an infinity is that infinity's. -/
theorem eq_packSign_of_unpackFp_inf {F : Format} {bits : Nat} {neg : Bool} (h : bits < 2 * signWeight F)
    (hinf : unpackFp F bits = .inf neg) : bits = packSign F neg (infBits F) := by
  obtain ⟨neg', p, hp, rfl⟩ := exists_packSign F h
  rcases Nat.lt_or_ge p (infBits F) with hlt | hge
  · rw [unpackFp_packSign F neg' hlt] at hinf
    contradiction
  · rw [unpackFp_packSign_of_infBits_le F neg' hp hge] at hinf
    split at hinf
    · next heq => rw [Fp.inf.inj hinf, heq]
    · contradiction

theorem packSign_lt (F : Format) (neg : Bool) {p : Nat} (hp : p ≤ infBits F) : packSign F neg p < 2 * signWeight F := by
  have := infBits_lt_signWeight F
  cases neg <;> simp [packSign] <;> omega

theorem fp32_ofNat {bits : Nat} (h : bits < 2 * signWeight binary32) :
    fp32 (BitVec.ofNat 32 bits) = unpackFp binary32 bits := by
  rw [fp32, BitVec.toNat_ofNat]
  exact congrArg _ (Nat.mod_eq_of_lt h)

theorem fp64_ofNat {bits : Nat} (h : bits < 2 * signWeight binary64) :
    fp64 (BitVec.ofNat 64 bits) = unpackFp binary64 bits := by
  rw [fp64, BitVec.toNat_ofNat]
  exact congrArg _ (Nat.mod_eq_of_lt h)

@[simp] theorem fp32_infinity (neg : Bool) : fp32 (BitVec.ofNat 32 (packSign binary32 neg (infBits binary32))) = .inf neg := by
  rw [fp32_ofNat (packSign_lt _ _ le_rfl), unpackFp_packSign_infBits]

@[simp] theorem fp64_infinity (neg : Bool) : fp64 (BitVec.ofNat 64 (packSign binary64 neg (infBits binary64))) = .inf neg := by
  rw [fp64_ofNat (packSign_lt _ _ le_rfl), unpackFp_packSign_infBits]

theorem eq_packSign_of_fp32_fin {v : Word32} {neg : Bool} {m : Nat} (h : fp32 v = .fin neg m) :
    ∃ p < infBits binary32, v = BitVec.ofNat 32 (packSign binary32 neg p) ∧ magnitudeUnits binary32 p = m := by
  obtain ⟨p, hp, hv, hm⟩ := eq_packSign_of_unpackFp_fin v.isLt h
  exact ⟨p, hp, by rw [← hv, BitVec.ofNat_toNat, BitVec.setWidth_eq], hm⟩

theorem eq_packSign_of_fp32_inf {v : Word32} {neg : Bool} (h : fp32 v = .inf neg) :
    v = BitVec.ofNat 32 (packSign binary32 neg (infBits binary32)) := by
  rw [← eq_packSign_of_unpackFp_inf v.isLt h, BitVec.ofNat_toNat, BitVec.setWidth_eq]

/-! ### Widening and narrowing -/

/-- A binary32 unit is 2^925 binary64 units. -/
theorem unitExp_sub : binary64.unitExp - binary32.unitExp = 925 := rfl

/-- Whole units that are a multiple of their last place round to themselves. -/
theorem roundPattern_exact {F : Format} (hF : 0 < F.fracBits) {num : Nat} (h : 2 ^ lastPlace F num 1 ∣ num) :
    magnitudeUnits F (roundPattern F num 1) = num := by
  have hfloor : magnitudeUnits F (floorPattern F num 1) = num := by
    rw [floorPattern_units, one_mul, Nat.div_mul_cancel h]
  have hround := roundPattern_magnitudeUnits hF (floorPattern F num 1) one_pos
  rw [hfloor, mul_one] at hround
  rw [hround, hfloor]

/-- The units of a finite binary32 magnitude are a 24-bit significand at a place of at most 2^253. -/
theorem binary32_units {p : Nat} (hp : p < infBits binary32) :
    ∃ k n, magnitudeUnits binary32 p = n * 2 ^ k ∧ n < 2 ^ 24 ∧ k ≤ 253 := by
  obtain ⟨k, n, rfl, hn, hk⟩ := exists_place binary32 p
  refine ⟨k, n, magnitudeUnits_place _ hn.le hk, hn, ?_⟩
  simp only [infBits, binary32_fracBits, binary32_expBits] at hp hk
  omega

/-- A finite binary32 magnitude's units, counted in binary64's, are a finite binary64 magnitude's. -/
theorem magnitudeUnits_roundUnits_widened {p : Nat} (hp : p < infBits binary32) :
    roundUnits binary64 (magnitudeUnits binary32 p * 2 ^ 925) 1 < infBits binary64 ∧
      magnitudeUnits binary64 (roundUnits binary64 (magnitudeUnits binary32 p * 2 ^ 925) 1) =
        magnitudeUnits binary32 p * 2 ^ 925 := by
  obtain ⟨k, n, hm, hn, hk⟩ := binary32_units hp
  rw [hm, mul_assoc, ← pow_add]
  have hnum : n * 2 ^ (k + 925) < 2 ^ (24 + (k + 925)) := by
    rw [pow_add 2 24]
    exact Nat.mul_lt_mul_of_pos_right hn (by positivity)
  have hlog : (n * 2 ^ (k + 925)).log2 < 24 + (k + 925) := by
    rw [Nat.log2_eq_log_two]
    exact Nat.log_lt_of_lt_pow' (by omega) hnum
  have hplace : lastPlace binary64 (n * 2 ^ (k + 925)) 1 ≤ k + 925 := by
    simp only [lastPlace, Nat.div_one, binary64_fracBits]
    omega
  have hexact : magnitudeUnits binary64 (roundPattern binary64 (n * 2 ^ (k + 925)) 1) = n * 2 ^ (k + 925) :=
    roundPattern_exact (by simp) (dvd_mul_of_dvd_right (pow_dvd_pow 2 hplace) n)
  have hlt : roundPattern binary64 (n * 2 ^ (k + 925)) 1 < infBits binary64 := by
    rw [← (magnitudeUnits_strictMono binary64).lt_iff_lt, hexact, magnitudeUnits_infBits (by simp)]
    calc n * 2 ^ (k + 925) < 2 ^ (24 + (k + 925)) := hnum
      _ ≤ 2 ^ (1 + binary64.fracBits + (2 ^ binary64.expBits - 3)) :=
        pow_le_pow_right₀ one_le_two (by simp only [binary64_fracBits, binary64_expBits]; omega)
  rw [roundUnits_eq_min, min_eq_right hlt.le]
  exact ⟨hlt, hexact⟩

/-- A finite binary32 value widens to the same sign with its units counted in binary64's. -/
theorem fp64_f64OfF32_of_fin {v : Word32} {neg : Bool} {m : Nat} (h : fp32 v = .fin neg m) :
    fp64 (f64OfF32 v) = .fin neg (m * 2 ^ 925) := by
  obtain ⟨p, hp, -, rfl⟩ := eq_packSign_of_fp32_fin h
  obtain ⟨hlt, hunits⟩ := magnitudeUnits_roundUnits_widened hp
  have hwide : f64OfF32 v =
      BitVec.ofNat 64 (packSign binary64 neg (roundUnits binary64 (magnitudeUnits binary32 p * 2 ^ 925) 1)) := by
    simp only [f64OfF32, h, packRound, unitExp_sub]
  rw [hwide, fp64_ofNat (packSign_lt _ _ hlt.le), unpackFp_packSign _ _ hlt]
  exact congrArg _ hunits

theorem fp64_f64OfF32_of_inf {v : Word32} {neg : Bool} (h : fp32 v = .inf neg) : fp64 (f64OfF32 v) = .inf neg := by
  rw [f64OfF32, h]
  exact fp64_infinity neg

/-- Narrowing undoes widening on finite values: the units are those of a binary32 magnitude again. -/
theorem f32OfF64_f64OfF32_of_fin {v : Word32} {neg : Bool} {m : Nat} (h : fp32 v = .fin neg m) :
    f32OfF64 (f64OfF32 v) = v := by
  obtain ⟨p, hp, hv, rfl⟩ := eq_packSign_of_fp32_fin h
  have hround : roundUnits binary32 (magnitudeUnits binary32 p * 2 ^ 925) (2 ^ 925) = p :=
    roundUnits_magnitudeUnits (by simp) hp.le (pow_pos two_pos 925)
  simp only [f32OfF64, fp64_f64OfF32_of_fin h, packRound, unitExp_sub, hround, ← hv]

theorem f32OfF64_f64OfF32_of_inf {v : Word32} {neg : Bool} (h : fp32 v = .inf neg) : f32OfF64 (f64OfF32 v) = v := by
  rw [f32OfF64, fp64_f64OfF32_of_inf h]
  exact (eq_packSign_of_fp32_inf h).symm

/-- Settles O40, by the three kinds of data a pattern can hold. -/
theorem wideningIsExact : Obligations.WideningIsExact := by
  refine fun v => ⟨fun _ _ h => fp64_f64OfF32_of_fin h, fun _ h => fp64_f64OfF32_of_inf h, fun hnan => ?_⟩
  cases h : fp32 v with
  | nan => exact absurd h hnan
  | inf neg => exact f32OfF64_f64OfF32_of_inf h
  | fin neg m => exact f32OfF64_f64OfF32_of_fin h

/-! ### NaN results -/

theorem isQuietNan32_quietNan32 (free : Word32) : IsQuietNan32 (quietNan32 free) :=
  ⟨fp32_quietNan32 free, by simp [quietNan32]⟩

theorem isQuietNan64_quietNan64 (free : Word64) : IsQuietNan64 (quietNan64 free) :=
  ⟨fp64_quietNan64 free, by simp [quietNan64]⟩

/-- A binary32 operation without a result pattern gives a quiet NaN. -/
theorem isQuietNan32_result32 (op : FpOp) (a b : Word64) {r : Option Nat} (h : r = none) :
    IsQuietNan32 (result32 op a b r) := by
  subst h
  exact isQuietNan32_quietNan32 _

theorem isQuietNan64_result64 (op : FpOp) (a b : Word64) {r : Option Nat} (h : r = none) :
    IsQuietNan64 (result64 op a b r) := by
  subst h
  exact isQuietNan64_quietNan64 _

theorem fp32_result32_infinity (op : FpOp) (a b : Word64) {r : Option Nat} {neg : Bool}
    (h : r = some (packSign binary32 neg (infBits binary32))) : fp32 (result32 op a b r) = .inf neg := by
  subst h
  exact fp32_infinity neg

theorem fp64_result64_infinity (op : FpOp) (a b : Word64) {r : Option Nat} {neg : Bool}
    (h : r = some (packSign binary64 neg (infBits binary64))) : fp64 (result64 op a b r) = .inf neg := by
  subst h
  exact fp64_infinity neg

/-- A NaN operand leaves no sum, product or quotient. -/
theorem addFp_nan (F : Format) {a b : Fp} (h : a = .nan ∨ b = .nan) : addFp F a b = none := by
  rcases h with rfl | rfl
  · rfl
  · cases a <;> rfl

theorem mulFp_nan (F : Format) {a b : Fp} (h : a = .nan ∨ b = .nan) : mulFp F a b = none := by
  rcases h with rfl | rfl
  · rfl
  · cases a <;> rfl

theorem divFp_nan (F : Format) {a b : Fp} (h : a = .nan ∨ b = .nan) : divFp F a b = none := by
  rcases h with rfl | rfl
  · rfl
  · cases a <;> rfl

theorem negFp_nan {a : Fp} (h : a = .nan) : negFp a = .nan := by rw [h, negFp]

/-- Infinities add to the infinity of their common sign, and opposite ones to nothing. -/
theorem addFp_inf (F : Format) (p q : Bool) :
    addFp F (.inf p) (.inf q) = if p = q then some (packSign F p (infBits F)) else none := rfl

/-- `0 * inf` has no product, in either order. -/
theorem mulFp_inf_zero (F : Format) (p q : Bool) :
    mulFp F (.inf p) (.fin q 0) = none ∧ mulFp F (.fin q 0) (.inf p) = none := ⟨rfl, rfl⟩

theorem divFp_inf_inf (F : Format) (p q : Bool) : divFp F (.inf p) (.inf q) = none := rfl

theorem divFp_zero_zero (F : Format) (p q : Bool) : divFp F (.fin p 0) (.fin q 0) = none := rfl

/-! ### Quiet NaNs of the operations -/

theorem binary32_nan_operand {a b : Word32} (h : fp32 a = .nan ∨ fp32 b = .nan) :
    IsQuietNan32 (add32 a b) ∧ IsQuietNan32 (sub32 a b) ∧ IsQuietNan32 (mul32 a b) ∧ IsQuietNan32 (div32 a b) :=
  ⟨isQuietNan32_result32 _ _ _ (addFp_nan _ h), isQuietNan32_result32 _ _ _ (addFp_nan _ (h.imp_right negFp_nan)),
    isQuietNan32_result32 _ _ _ (mulFp_nan _ h), isQuietNan32_result32 _ _ _ (divFp_nan _ h)⟩

theorem binary64_nan_operand {a b : Word64} (h : fp64 a = .nan ∨ fp64 b = .nan) :
    IsQuietNan64 (add64 a b) ∧ IsQuietNan64 (mul64 a b) :=
  ⟨isQuietNan64_result64 _ _ _ (addFp_nan _ h), isQuietNan64_result64 _ _ _ (mulFp_nan _ h)⟩

theorem add32_infinities {a b : Word32} {p q : Bool} (ha : fp32 a = .inf p) (hb : fp32 b = .inf q) :
    if p = q then fp32 (add32 a b) = .inf p else IsQuietNan32 (add32 a b) := by
  have hsum := addFp_inf binary32 p q
  rw [← ha, ← hb] at hsum
  split_ifs with hpq
  · exact fp32_result32_infinity _ _ _ (by rw [hsum, if_pos hpq])
  · exact isQuietNan32_result32 _ _ _ (by rw [hsum, if_neg hpq])

theorem sub32_infinities {a b : Word32} {p q : Bool} (ha : fp32 a = .inf p) (hb : fp32 b = .inf q) :
    if p = q then IsQuietNan32 (sub32 a b) else fp32 (sub32 a b) = .inf p := by
  have hneg : negFp (fp32 b) = .inf (!q) := by rw [hb, negFp]
  have hdiff := addFp_inf binary32 p (!q)
  rw [← ha, ← hneg] at hdiff
  split_ifs with hpq
  · exact isQuietNan32_result32 _ _ _ (by rw [hdiff, if_neg (by simp [hpq])])
  · exact fp32_result32_infinity _ _ _ (by rw [hdiff, if_pos (Bool.eq_not.mpr hpq)])

theorem add64_infinities {a b : Word64} {p q : Bool} (ha : fp64 a = .inf p) (hb : fp64 b = .inf q) :
    if p = q then fp64 (add64 a b) = .inf p else IsQuietNan64 (add64 a b) := by
  have hsum := addFp_inf binary64 p q
  rw [← ha, ← hb] at hsum
  split_ifs with hpq
  · exact fp64_result64_infinity _ _ _ (by rw [hsum, if_pos hpq])
  · exact isQuietNan64_result64 _ _ _ (by rw [hsum, if_neg hpq])

theorem div32_infinities {a b : Word32} {p q : Bool} (ha : fp32 a = .inf p) (hb : fp32 b = .inf q) :
    IsQuietNan32 (div32 a b) :=
  isQuietNan32_result32 _ _ _ (by rw [ha, hb, divFp_inf_inf])

theorem div32_zeros {a b : Word32} {p q : Bool} (ha : fp32 a = .fin p 0) (hb : fp32 b = .fin q 0) :
    IsQuietNan32 (div32 a b) :=
  isQuietNan32_result32 _ _ _ (by rw [ha, hb, divFp_zero_zero])

theorem mul32_infinity_zero {a b : Word32} {p q : Bool} (ha : fp32 a = .inf p) (hb : fp32 b = .fin q 0) :
    IsQuietNan32 (mul32 a b) ∧ IsQuietNan32 (mul32 b a) := by
  obtain ⟨hab, hba⟩ := mulFp_inf_zero binary32 p q
  exact ⟨isQuietNan32_result32 _ _ _ (by rw [ha, hb, hab]), isQuietNan32_result32 _ _ _ (by rw [ha, hb, hba])⟩

theorem mul64_infinity_zero {a b : Word64} {p q : Bool} (ha : fp64 a = .inf p) (hb : fp64 b = .fin q 0) :
    IsQuietNan64 (mul64 a b) ∧ IsQuietNan64 (mul64 b a) := by
  obtain ⟨hab, hba⟩ := mulFp_inf_zero binary64 p q
  exact ⟨isQuietNan64_result64 _ _ _ (by rw [ha, hb, hab]), isQuietNan64_result64 _ _ _ (by rw [ha, hb, hba])⟩

theorem f64OfF32_nan {v : Word32} (h : fp32 v = .nan) : IsQuietNan64 (f64OfF32 v) := by
  rw [f64OfF32, h]
  exact isQuietNan64_quietNan64 _

theorem f32OfF64_nan {v : Word64} (h : fp64 v = .nan) : IsQuietNan32 (f32OfF64 v) := by
  rw [f32OfF64, h]
  exact isQuietNan32_quietNan32 _

/-- Settles O41: each clause is the corresponding law of the operations above. -/
theorem invalidOperationsGiveQuietNan : Obligations.InvalidOperationsGiveQuietNan := by
  refine ⟨fun a b h op hop => ?_, fun a b h op hop => ?_,
    fun a b p q ha hb => ⟨add32_infinities ha hb, sub32_infinities ha hb, div32_infinities ha hb⟩,
    fun a b p q ha hb => add64_infinities ha hb, fun a b p q ha hb => mul32_infinity_zero ha hb,
    fun a b p q ha hb => mul64_infinity_zero ha hb, fun a b p q ha hb => div32_zeros ha hb,
    fun v h => f64OfF32_nan h, fun v h => f32OfF64_nan h⟩
  · obtain ⟨hadd, hsub, hmul, hdiv⟩ := binary32_nan_operand h
    simp only [List.mem_cons, List.not_mem_nil, or_false] at hop
    rcases hop with rfl | rfl | rfl | rfl
    · exact hadd
    · exact hsub
    · exact hmul
    · exact hdiv
  · obtain ⟨hadd, hmul⟩ := binary64_nan_operand h
    rcases List.mem_pair.mp hop with rfl | rfl
    · exact hadd
    · exact hmul

end Sys2Proof.Machine
end

section
/-! SUPPORT. What a step leaves of the data, said once: the fields no command reads, the frame of each effect by its write set,
and the invariants of the memory, the map, the tensor and the parameters (statements O53, O55, O56, O57 and O59). -/

namespace Sys2Proof.Machine

/-! ### The one shape of an invariant on the data -/

/-- Only the host's side and the command's life differ: the enables, BUSY, DONE, FAULT, ACCERR and their records, the port's
registers, the latch, the data returned and the pending events. -/
def SameData (s t : State) : Prop :=
  t = { s with
    ctrl := t.ctrl
    status := { s.status with
      busy := t.status.busy, done := t.status.done, fault := t.status.fault, accErr := t.status.accErr }
    faultInfo := t.faultInfo
    accInfo := t.accInfo
    bufSel := t.bufSel
    bufIdx := t.bufIdx
    curCmd := t.curCmd
    hostData := t.hostData
    events := t.events }

theorem SameData.buf {s t : State} (h : SameData s t) (b : Buf) : t.buf b = s.buf b :=
  (congrArg (State.buf · b) h).trans (by cases b <;> rfl)

theorem SameData.cap {s t : State} (h : SameData s t) : t.cap = s.cap := (congrArg State.cap h :)
theorem SameData.basis {s t : State} (h : SameData s t) : t.basis = s.basis := (congrArg State.basis h :)
theorem SameData.imgDim {s t : State} (h : SameData s t) : t.imgDim = s.imgDim := (congrArg State.imgDim h :)
theorem SameData.blkReq {s t : State} (h : SameData s t) : t.blkReq = s.blkReq := (congrArg State.blkReq h :)
theorem SameData.phiShape {s t : State} (h : SameData s t) : t.phiShape = s.phiShape := (congrArg State.phiShape h :)

theorem SameData.unwrittenSeed {s t : State} (h : SameData s t) : t.unwrittenSeed = s.unwrittenSeed :=
  (congrArg State.unwrittenSeed h :)

theorem SameData.mapValid {s t : State} (h : SameData s t) : t.status.mapValid = s.status.mapValid :=
  congrArg (·.status.mapValid) h

theorem SameData.phiValid {s t : State} (h : SameData s t) : t.status.phiValid = s.status.phiValid :=
  congrArg (·.status.phiValid) h

theorem SameData.elem {s t : State} (h : SameData s t) (b : Buf) (i : Nat) : t.elem b i = s.elem b i :=
  State.elem_congr h.unwrittenSeed (h.buf b) i

theorem sameData_flagAccErr (c : AccError) (s : State) : SameData s (flagAccErr c s) := rfl

theorem sameData_writeStatus (v : Word64) (s : State) : SameData s (writeStatus v s) := rfl

theorem sameData_writeBufSel (v : Word64) (s : State) : SameData s (writeBufSel v s) := rfl

theorem sameData_writeBufIdx (v : Word64) (s : State) : SameData s (writeBufIdx v s) := rfl

theorem sameData_acceptIllegal (w : Word32) (s : State) : SameData s (acceptIllegal w s) := rfl

theorem sameData_acceptCommand (i : Instr) (s : State) : SameData s (acceptCommand i s) := by
  rcases acceptCommand_cases i s with ⟨-, h⟩ | ⟨f, -, h⟩ <;> rw [h] <;> rfl

theorem sameData_bufPortRead (s : State) : SameData s (bufPortRead s) := by
  unfold bufPortRead
  repeat' split
  all_goals rfl

theorem sameData_hostRead (off : BitVec 8) (bits : Nat) (s : State) : SameData s (hostRead off bits s) := by
  unfold hostRead
  split
  · rfl
  · exact sameData_bufPortRead s
  · rfl

/-- A write of BUFDATA changes no data, or stores one element of a buffer the host may write. -/
theorem bufPortWrite_cases (v : Word64) (s : State) :
    SameData s (bufPortWrite v s) ∨
    ∃ b, hostReadOnly b = false ∧ bufPortWrite v s = bumpIndex (s.writeFrom b s.bufIdx.toNat 1 fun _ => v) := by
  unfold bufPortWrite
  split
  · exact .inl rfl
  split
  · exact .inl rfl
  next b _ =>
    split
    · exact .inl rfl
    next hb =>
      split
      · exact .inl rfl
      · exact .inr ⟨b, by simpa using hb, rfl⟩

/-- A write of CTRL is the soft reset, or sets the enables. -/
theorem writeCtrl_cases (v : Word64) (s : State) : writeCtrl v s = softReset s ∨ SameData s (writeCtrl v s) := by
  unfold writeCtrl
  split
  · exact .inl rfl
  · exact .inr rfl

/-- A property of the data that everything a step can do to the data keeps. -/
structure DataInvariant (P : State → Prop) : Prop where
  sameData : ∀ {s t : State}, SameData s t → P s → P t
  effect : ∀ (i : Instr) {s : State}, P s → P (effectOf i s)
  portWrite : ∀ (v : Word64) {s : State} {b : Buf}, hostReadOnly b = false → P s →
    P (s.writeFrom b s.bufIdx.toNat 1 fun _ => v)
  imgDim : ∀ (v : Word64) {s : State}, P s → P (writeImgDim v s)
  blkReq : ∀ (v : Word64) {s : State}, P s → P (writeBlkReq v s)
  softReset : ∀ {s : State}, P s → P (softReset s)
  hardReset : ∀ {s : State}, P s → P (hardReset s)

namespace DataInvariant

variable {P : State → Prop} {s t : State}

theorem engineStep_keeps (h : DataInvariant P) (hs : P s) (ht : engineStep s = .next t) : P t := by
  rcases engineStep_next ht with ⟨-, rfl⟩ | ⟨-, i, -, rfl⟩
  · exact hs
  · exact h.sameData rfl (h.effect i hs)

theorem presentCommand_keeps (h : DataInvariant P) (hs : P s) {w : Word32} (ht : presentCommand w s = .next t) : P t := by
  rcases presentCommand_next ht with ⟨-, rfl⟩ | ⟨-, -, rfl⟩ | ⟨-, -, -, rfl⟩ | ⟨-, -, i, -, rfl⟩
  · exact h.sameData (sameData_flagAccErr _ s) hs
  · exact h.sameData (sameData_flagAccErr _ s) hs
  · exact h.sameData (sameData_acceptIllegal w s) hs
  · exact h.sameData (sameData_acceptCommand i s) hs

theorem bufPortWrite_keeps (h : DataInvariant P) (hs : P s) (v : Word64) : P (bufPortWrite v s) := by
  rcases bufPortWrite_cases v s with hd | ⟨b, hb, he⟩
  · exact h.sameData hd hs
  · rw [he]
    exact h.sameData rfl (h.portWrite v hb hs)

theorem writeCtrl_keeps (h : DataInvariant P) (hs : P s) (v : Word64) : P (writeCtrl v s) := by
  rcases writeCtrl_cases v s with he | hd
  · rw [he]
    exact h.softReset hs
  · exact h.sameData hd hs

theorem hostWrite_keeps (h : DataInvariant P) (hs : P s) {off : BitVec 8} {bits : Nat} {v : Word64}
    (ht : hostWrite off bits v s = .next t) : P t := by
  rcases hostWrite_next ht with rfl | rfl | rfl | rfl | rfl | hc | ⟨-, rfl | rfl | rfl | rfl⟩ | rfl
  · exact hs
  · exact h.sameData (sameData_flagAccErr _ s) hs
  · exact h.sameData (sameData_flagAccErr _ s) hs
  · exact h.writeCtrl_keeps hs v
  · exact h.sameData (sameData_writeStatus v s) hs
  · exact h.presentCommand_keeps hs hc
  · exact h.imgDim v hs
  · exact h.blkReq v hs
  · exact h.sameData (sameData_writeBufSel v s) hs
  · exact h.sameData (sameData_writeBufIdx v s) hs
  · exact h.bufPortWrite_keeps hs v

theorem applyEvent_keeps (h : DataInvariant P) (hs : P s) {e : Event} (ht : applyEvent e s = .next t) : P t := by
  cases e with
  | read off bits =>
    obtain rfl := Host.Outcome.next.inj ht
    exact h.sameData (sameData_hostRead off bits s) hs
  | write off bits v => exact h.hostWrite_keeps hs ht
  | complete => exact h.engineStep_keeps hs ht
  | hardReset =>
    obtain rfl := Host.Outcome.next.inj ht
    exact h.hardReset hs

/-- What everything a step does keeps, the step keeps. -/
theorem step_keeps (h : DataInvariant P) (hs : P s) (ht : step s = .next t) : P t := by
  cases he : s.events with
  | nil =>
    rw [step_of_nil he] at ht
    exact h.engineStep_keeps hs ht
  | cons e rest =>
    rw [step_of_cons he] at ht
    exact h.applyEvent_keeps (h.sameData (t := { s with events := rest }) rfl hs) ht

end DataInvariant

/-! ### The frame of an effect -/

/-- The registers an effect writes hold no buffer. -/
theorem State.buf_withRegisters (s : State) (c : DctCtx) (p : Dims) (f : Status) (b : Buf) :
    State.buf { s with dctCtx := c, phiShape := p, status := f } b = s.buf b := by
  cases b <;> rfl

theorem State.elem_withRegisters (s : State) (c : DctCtx) (p : Dims) (f : Status) (b : Buf) (i : Nat) :
    State.elem { s with dctCtx := c, phiShape := p, status := f } b i = s.elem b i :=
  State.elem_congr rfl (s.buf_withRegisters c p f b) i

theorem State.elem_writeFrom32_other (s : State) {b b' : Buf} (h : b' ≠ b) (base n : Nat) (val : Nat → Word32) (i : Nat) :
    (s.writeFrom32 b base n val).elem b' i = s.elem b' i :=
  s.elem_writeFrom_other h base n _ i

theorem buildPhi_elem (s : State) (b : Buf) (i : Nat) :
    (buildPhi s).elem b i = (s.writeFrom .phi 0 (s.area * s.area) (tensorEntry s.basis s.bw s.bh)).elem b i :=
  State.elem_withRegisters _ _ _ _ b i

theorem effectDct_elem (ch : Channel) (k : Nat) (s : State) {b : Buf} (h : b ≠ .coef) (i : Nat) :
    (effectDct ch k s).elem b i = (ensurePhi s).elem b i :=
  (State.elem_withRegisters _ _ _ _ b i).trans (State.elem_writeFrom_other _ h _ _ _ i)

/-- An effect leaves every buffer that is not in its write set. -/
theorem effectOf_elem_other (i : Instr) (s : State) {b : Buf} (h : ∀ p ∈ writeSet s i, b ≠ p.buf) (n : Nat) :
    (effectOf i s).elem b n = s.elem b n := by
  cases i with
  | rgb2yuv =>
    obtain ⟨hy, hu, hv, ha⟩ : b ≠ .chan .y ∧ b ≠ .chan .u ∧ b ≠ .chan .v ∧ b ≠ .alpha := by simpa [writeSet] using h
    simp only [effectOf, effectRgb2yuv, State.elem_writeFrom_other _ ha, State.elem_writeFrom32_other _ hv,
      State.elem_writeFrom32_other _ hu, State.elem_writeFrom32_other _ hy]
  | yuv2rgb => exact s.elem_writeFrom_other (by simpa [writeSet] using h) _ _ _ n
  | mapgen =>
    exact (State.elem_withRegisters _ _ _ _ b n).trans (s.elem_writeFrom_other (by simpa [writeSet] using h) _ _ _ n)
  | dwt ch m =>
    obtain ⟨ha, hh, hv, hd⟩ : b ≠ .sba ch ∧ b ≠ .sbh ch ∧ b ≠ .sbv ch ∧ b ≠ .sbd ch := by simpa [writeSet] using h
    simp only [effectOf, effectDwt, State.elem_writeAt_other _ hd, State.elem_writeAt_other _ hv,
      State.elem_writeAt_other _ hh, State.elem_writeAt_other _ ha]
  | idwt ch m => exact s.elem_writeFrom32_other (by simpa [writeSet] using h) _ _ _ n
  | dctinit => exact (buildPhi_elem s b n).trans (s.elem_writeFrom_other (by simpa [writeSet] using h) _ _ _ n)
  | dct ch k =>
    refine (effectDct_elem ch k s (by simpa using h ⟨.coef, 0, s.area⟩ (by simp [writeSet])) n).trans ?_
    rcases ensurePhi_cases s with ⟨-, he⟩ | ⟨hp, he⟩
    · rw [he]
    · have hb : b ≠ .phi := h ⟨.phi, 0, s.area * s.area⟩ (by simp [writeSet, hp])
      rw [he, buildPhi_elem, s.elem_writeFrom_other hb]
  | idct => exact s.elem_writeFrom32_other (by simpa [writeSet] using h) _ _ _ n
  | svd =>
    obtain ⟨hs, hu, hv⟩ : b ≠ .sval ∧ b ≠ .svdu ∧ b ≠ .svdv := by simpa [writeSet] using h
    simp only [effectOf, effectSvd]
    cases svdSolver s.bh s.bw (coefMatrix s) with
    | none => exact State.elem_withRegisters _ _ _ _ b n
    | some f =>
      refine (State.elem_withRegisters _ _ _ _ b n).trans ?_
      rw [State.elem_writeFrom_other _ hv, State.elem_writeFrom_other _ hu, State.elem_writeFrom_other _ hs]
  | isvd => exact s.elem_writeFrom_other (by simpa [writeSet] using h) _ _ _ n

/-! ### The memory's canonical form -/

theorem memory_wf_congr {s t : State} (hu : t.unwrittenSeed = s.unwrittenSeed) (hb : ∀ b, t.buf b = s.buf b)
    (w : Memory.wf s = true) : Memory.wf t = true := by
  rw [memory_wf_iff] at w ⊢
  intro b
  rw [State.unwritten, hu, hb]
  exact w b

theorem memory_wf_writeAt {s : State} (w : Memory.wf s = true) (b : Buf) (n : Nat) (idx : Nat → Nat) (val : Nat → Word64) :
    Memory.wf (s.writeAt b n idx val) = true :=
  (memory_wf_iff _).mpr (s.scatter_wf b n idx _ ((memory_wf_iff s).mp w))

theorem memory_wf_writeFrom {s : State} (w : Memory.wf s = true) (b : Buf) (base n : Nat) (val : Nat → Word64) :
    Memory.wf (s.writeFrom b base n val) = true :=
  memory_wf_writeAt w b n _ val

theorem memory_wf_writeFrom32 {s : State} (w : Memory.wf s = true) (b : Buf) (base n : Nat) (val : Nat → Word32) :
    Memory.wf (s.writeFrom32 b base n val) = true :=
  memory_wf_writeFrom w b base n _

theorem memory_wf_withRegisters {s : State} (w : Memory.wf s = true) (c : DctCtx) (p : Dims) (f : Status) :
    Memory.wf { s with dctCtx := c, phiShape := p, status := f } = true :=
  memory_wf_congr rfl (s.buf_withRegisters c p f) w

theorem memory_wf_buildPhi {s : State} (w : Memory.wf s = true) : Memory.wf (buildPhi s) = true :=
  memory_wf_withRegisters (memory_wf_writeFrom w _ _ _ _) _ _ _

theorem memory_wf_ensurePhi {s : State} (w : Memory.wf s = true) : Memory.wf (ensurePhi s) = true := by
  rcases ensurePhi_cases s with ⟨-, h⟩ | ⟨-, h⟩ <;> rw [h]
  · exact w
  · exact memory_wf_buildPhi w

theorem memory_wf_storeSvd {s : State} (w : Memory.wf s = true) (answer : Option SvdTriple) :
    Memory.wf (storeSvd answer s) = true := by
  cases answer with
  | none => exact memory_wf_withRegisters w _ _ _
  | some f =>
    exact memory_wf_withRegisters
      (memory_wf_writeFrom (memory_wf_writeFrom (memory_wf_writeFrom w _ _ _ _) _ _ _ _) _ _ _ _) _ _ _

/-- An effect stores elements and registers only. -/
theorem memory_wf_effectOf (i : Instr) {s : State} (w : Memory.wf s = true) : Memory.wf (effectOf i s) = true := by
  cases i with
  | rgb2yuv =>
    exact memory_wf_writeFrom
      (memory_wf_writeFrom32 (memory_wf_writeFrom32 (memory_wf_writeFrom32 w _ _ _ _) _ _ _ _) _ _ _ _) _ _ _ _
  | yuv2rgb => exact memory_wf_writeFrom w _ _ _ _
  | mapgen => exact memory_wf_withRegisters (memory_wf_writeFrom w _ _ _ _) _ _ _
  | dwt ch m =>
    exact memory_wf_writeAt (memory_wf_writeAt (memory_wf_writeAt (memory_wf_writeAt w _ _ _ _) _ _ _ _) _ _ _ _) _ _ _ _
  | idwt ch m => exact memory_wf_writeFrom32 w _ _ _ _
  | dctinit => exact memory_wf_buildPhi w
  | dct ch k => exact memory_wf_withRegisters (memory_wf_writeFrom (memory_wf_ensurePhi w) _ _ _ _) _ _ _
  | idct => exact memory_wf_writeFrom32 w _ _ _ _
  | svd => exact memory_wf_storeSvd w _
  | isvd => exact memory_wf_writeFrom w _ _ _ _

theorem resetRegisters_buf (s : State) (b : Buf) : (resetRegisters s).buf b = s.buf b := by
  cases b <;> rfl

/-- A soft reset forgets the write set of a command in flight and keeps the form of the rest. -/
theorem memory_wf_softReset {s : State} (w : Memory.wf s = true) : Memory.wf (softReset s) = true := by
  unfold softReset
  split
  · have hr : Memory.wf { resetRegisters s with freeCount := s.freeCount + 1 } = true :=
      memory_wf_congr rfl (fun b => by cases b <;> rfl) w
    exact (memory_wf_iff _).mpr (forgetSpans_wf _ _ _ ((memory_wf_iff _).mp hr))
  · exact memory_wf_congr rfl (resetRegisters_buf s) w

theorem hardReset_buf (s : State) (b : Buf) : (hardReset s).buf b = [] := by
  cases b with
  | chan c => cases c <;> rfl
  | sba c => cases c <;> rfl
  | sbh c => cases c <;> rfl
  | sbv c => cases c <;> rfl
  | sbd c => cases c <;> rfl
  | _ => rfl

theorem memory_wf_hardReset (s : State) : Memory.wf (hardReset s) = true :=
  (memory_wf_iff _).mpr fun b => by rw [hardReset_buf]; exact bufferWf_nil _

theorem memoryCanonical_dataInvariant : DataInvariant fun s => Memory.wf s = true where
  sameData h w := memory_wf_congr h.unwrittenSeed h.buf w
  effect i _ w := memory_wf_effectOf i w
  portWrite _ _ _ _ w := memory_wf_writeFrom w _ _ _ _
  imgDim _ _ w := memory_wf_congr rfl (fun b => by cases b <;> rfl) w
  blkReq _ _ w := memory_wf_congr rfl (fun b => by cases b <;> rfl) w
  softReset w := memory_wf_softReset w
  hardReset _ := memory_wf_hardReset _

/-- Settles O55: everything a step does to the memory is an element write, a forgotten span or a hardware reset. -/
theorem stepKeepsMemoryCanonical : Obligations.StepKeepsMemoryCanonical :=
  fun _ _ => memoryCanonical_dataInvariant.step_keeps

/-! ### The parameters -/

/-- The parameters MAXPIX, BMAX and BASIS1D are the same. -/
def SameParameters (s t : State) : Prop := t.cap = s.cap ∧ t.basis = s.basis

theorem softReset_sameParameters (s : State) : SameParameters s (softReset s) := by
  unfold softReset
  split
  · exact ⟨forgetSpans_keeps State.cap State.setBuf_cap _ _ _, forgetSpans_keeps State.basis State.setBuf_basis _ _ _⟩
  · exact ⟨rfl, rfl⟩

theorem SameParameters.trans {s t u : State} (h : SameParameters s t) (g : SameParameters t u) : SameParameters s u :=
  ⟨g.1.trans h.1, g.2.trans h.2⟩

theorem sameParameters_dataInvariant (s : State) : DataInvariant (SameParameters s) where
  sameData h hs := hs.trans ⟨h.cap, h.basis⟩
  effect i _ hs := hs.trans ⟨(sameOutside_effect i _).cap, (sameOutside_effect i _).basis⟩
  portWrite _ _ _ _ hs := hs.trans ⟨State.writeFrom_cap _ _ _ _ _, State.writeFrom_basis _ _ _ _ _⟩
  imgDim _ _ hs := hs
  blkReq _ _ hs := hs
  softReset hs := hs.trans (softReset_sameParameters _)
  hardReset hs := hs

/-- Settles O59: no event and no effect writes CAP or the generator's number, the resets included. -/
theorem parametersNeverChange : Obligations.ParametersNeverChange := by
  intro s t h
  obtain ⟨hcap, hbasis⟩ := (sameParameters_dataInvariant s).step_keeps ⟨rfl, rfl⟩ h
  refine ⟨hcap, hbasis, fun hl => ?_⟩
  simpa only [ParametersLegal, State.maxPix, State.bMax, hcap] using hl

/-! ### The block map -/

/-- Place value: a digit below `n` after fewer than `b` steps of `n` stays below `b * n`. -/
theorem mul_add_lt_mul {a b r n : Nat} (ha : a < b) (hr : r < n) : a * n + r < b * n :=
  calc a * n + r < a * n + n := Nat.add_lt_add_left hr _
    _ = (a + 1) * n := (Nat.succ_mul a n).symm
    _ ≤ b * n := Nat.mul_le_mul_right n ha

/-- A cell of a whole block is stored before the end of the whole blocks (R159). -/
theorem mapIdx_block_lt {wd ht bw bh x y : Nat} (hbw : 0 < bw) (hbh : 0 < bh) (hx : x < wd / bw * bw) (hy : y < ht / bh * bh) :
    y / bh * (wd / bw * bw * bh) + x / bw * (bw * bh) + y % bh * bw + x % bw < wd / bw * bw * (ht / bh * bh) := by
  have hcell : y % bh * bw + x % bw < bw * bh := by
    rw [Nat.mul_comm bw]
    exact mul_add_lt_mul (Nat.mod_lt y hbh) (Nat.mod_lt x hbw)
  have hrow : x / bw * (bw * bh) + (y % bh * bw + x % bw) < wd / bw * bw * bh := by
    rw [Nat.mul_assoc]
    exact mul_add_lt_mul (Nat.div_lt_of_lt_mul (by rwa [Nat.mul_comm])) hcell
  have hall := mul_add_lt_mul (Nat.div_lt_of_lt_mul (by rwa [Nat.mul_comm] : y < bh * (ht / bh))) hrow
  calc y / bh * (wd / bw * bw * bh) + x / bw * (bw * bh) + y % bh * bw + x % bw
      = y / bh * (wd / bw * bw * bh) + (x / bw * (bw * bh) + (y % bh * bw + x % bw)) := by ring
    _ < ht / bh * (wd / bw * bw * bh) := hall
    _ = wd / bw * bw * (ht / bh * bh) := by ring

/-- A cell of the right margin is stored after the whole blocks and before the end of their rows (R159). -/
theorem mapIdx_margin_lt {wd aw ah x y : Nat} (haw : aw ≤ x) (hx : x < wd) (hy : y < ah) :
    aw * ah + y * (wd - aw) + (x - aw) < ah * wd :=
  calc aw * ah + y * (wd - aw) + (x - aw) = aw * ah + (y * (wd - aw) + (x - aw)) := Nat.add_assoc _ _ _
    _ < aw * ah + ah * (wd - aw) := Nat.add_lt_add_left (mul_add_lt_mul hy (by omega)) _
    _ = ah * (aw + (wd - aw)) := by ring
    _ = ah * wd := by rw [Nat.add_sub_cancel' (by omega)]

/-- The map's values stay inside the grid (41_geometry_blockmap.md R158, R159). -/
theorem mapIdx_lt {wd ht bw bh x y : Nat} (hbw : 0 < bw) (hbh : 0 < bh) (hx : x < wd) (hy : y < ht) :
    mapIdx wd ht bw bh x y < ht * wd := by
  have haw : wd / bw * bw ≤ wd := Nat.div_mul_le_self wd bw
  have hah : ht / bh * bh ≤ ht := Nat.div_mul_le_self ht bh
  unfold mapIdx
  dsimp only
  split_ifs with hbelow hright
  · exact mul_add_lt_mul hy hx
  · exact (mapIdx_margin_lt hright hx (by omega)).trans_le (Nat.mul_le_mul_right wd hah)
  · calc _ < wd / bw * bw * (ht / bh * bh) := mapIdx_block_lt hbw hbh (by omega) (by omega)
      _ ≤ wd * ht := Nat.mul_le_mul haw hah
      _ = ht * wd := Nat.mul_comm wd ht

theorem State.wWave_le (s : State) : s.wWave ≤ 32768 := by
  have := s.imgDim.w.isLt
  unfold State.wWave State.width
  omega

theorem State.hWave_le (s : State) : s.hWave ≤ 32768 := by
  have := s.imgDim.h.isLt
  unfold State.hWave State.height
  omega

theorem mapEntry_lt {s : State} {k : Nat} (hk : k < s.waves) : mapEntry s k < s.waves := by
  have hw : 0 < s.wWave := Nat.pos_of_mul_pos_right (Nat.zero_lt_of_lt hk)
  rw [State.waves, Nat.mul_comm]
  exact mapIdx_lt s.bw_pos s.bh_pos (Nat.mod_lt k hw) (Nat.div_lt_of_lt_mul hk)

/-- Every map entry fits in the 32 bits of a BMAP element, whatever the geometry. -/
theorem mapEntry_lt_two_pow {s : State} {k : Nat} (hk : k < s.waves) : mapEntry s k < 2 ^ 32 :=
  calc mapEntry s k < s.waves := mapEntry_lt hk
    _ ≤ 32768 * 32768 := Nat.mul_le_mul s.wWave_le s.hWave_le
    _ < 2 ^ 32 := by norm_num

theorem packElem_bmap {n : Nat} (h : n < 2 ^ 32) : packElem .bmap (BitVec.ofNat 64 n) = BitVec.ofNat 64 n := by
  apply BitVec.eq_of_toNat_eq
  simp only [packElem, elemBits, BitVec.toNat_setWidth, BitVec.toNat_ofNat]
  omega

/-- MAPGEN loads the map of the current geometry (41_geometry_blockmap.md R157). -/
theorem mapLoaded_effectMapgen (s : State) : MapLoaded (effectMapgen s) := by
  intro k hk
  have hk' : k < s.waves := hk
  calc (effectMapgen s).elem .bmap k
      = (s.writeFrom .bmap 0 s.waves fun k => BitVec.ofNat 64 (mapEntry s k)).elem .bmap k :=
        State.elem_withRegisters _ _ _ _ _ _
    _ = packElem .bmap (BitVec.ofNat 64 (mapEntry s k)) := by simp [State.elem_writeFrom, hk']
    _ = BitVec.ofNat 64 (mapEntry s k) := packElem_bmap (mapEntry_lt_two_pow hk')

/-- The map invariant speaks of MAP_VALID, the geometry and BMAP. -/
theorem MapSound.of_frame {s t : State} (h : MapSound s) (hv : t.status.mapValid = s.status.mapValid)
    (hi : t.imgDim = s.imgDim) (hb : t.blkReq = s.blkReq) (he : ∀ k, t.elem .bmap k = s.elem .bmap k) : MapSound t := by
  intro hm k hk
  have hwaves : t.waves = s.waves := by
    simp only [State.waves, State.wWave, State.hWave, State.width, State.height, hi]
  have hentry : mapEntry t k = mapEntry s k := by
    simp only [mapEntry, State.wWave, State.hWave, State.width, State.height, State.bw, State.bh, hi, hb]
  rw [he, hentry]
  exact h (hv ▸ hm) k (hwaves ▸ hk)

theorem MapSound.of_mapInvalid {s : State} (h : s.status.mapValid = false) : MapSound s :=
  fun hm => absurd hm (by simp [h])

theorem softReset_status (s : State) : (softReset s).status = Status.reset := by
  unfold softReset
  split
  · exact forgetSpans_keeps State.status State.setBuf_status _ _ _
  · rfl

/-- MAPGEN alone writes MAP_VALID. -/
theorem effectOf_mapValid {i : Instr} (hi : i ≠ .mapgen) (s : State) :
    (effectOf i s).status.mapValid = s.status.mapValid := by
  cases i with
  | mapgen => exact absurd rfl hi
  | dct ch k =>
    rcases ensurePhi_cases s with ⟨-, h⟩ | ⟨-, h⟩ <;> simp [effectOf, effectDct, dctFlags, h, buildPhi, phiFlags]
  | dctinit => simp [effectOf, effectDctinit, buildPhi, phiFlags]
  | svd =>
    cases h : svdSolver s.bh s.bw (coefMatrix s) <;> simp [effectOf, effectSvd, storeSvd, h, svdDoneFlags, svdFailFlags]
  | _ => simp [effectOf, effectRgb2yuv, effectYuv2rgb, effectDwt, effectIdwt, effectIdct, effectIsvd]

/-- MAPGEN alone writes BMAP. -/
theorem bmap_notMem_writeSet {i : Instr} (hi : i ≠ .mapgen) (s : State) : ∀ p ∈ writeSet s i, Buf.bmap ≠ p.buf := by
  cases i with
  | mapgen => exact absurd rfl hi
  | dct ch k => cases h : s.phiOk <;> simp [writeSet, h]
  | _ => simp [writeSet]

theorem mapSound_effectOf (i : Instr) {s : State} (h : MapSound s) : MapSound (effectOf i s) := by
  by_cases hi : i = .mapgen
  · subst hi
    exact fun _ => mapLoaded_effectMapgen s
  · have hs := sameOutside_effect i s
    exact h.of_frame (effectOf_mapValid hi s) hs.imgDim hs.blkReq (effectOf_elem_other i s (bmap_notMem_writeSet hi s))

theorem mapSound_dataInvariant : DataInvariant MapSound where
  sameData h hs := hs.of_frame h.mapValid h.imgDim h.blkReq (h.elem .bmap)
  effect i _ hs := mapSound_effectOf i hs
  portWrite _ s b hb hs :=
    hs.of_frame (by simp) (by simp) (by simp) fun k =>
      s.elem_writeFrom_other (by rintro rfl; exact absurd hb (by decide)) _ _ _ k
  imgDim _ _ _ := .of_mapInvalid rfl
  blkReq _ _ _ := .of_mapInvalid rfl
  softReset _ := .of_mapInvalid (by rw [softReset_status]; rfl)
  hardReset _ := .of_mapInvalid rfl

/-- Settles O56: MAPGEN loads the map it declares valid, every change of the geometry clears MAP_VALID, and nothing else writes
BMAP. -/
theorem stepKeepsMapSound : Obligations.StepKeepsMapSound :=
  fun _ _ => mapSound_dataInvariant.step_keeps

/-! ### The basis tensor -/

/-- The canonical dimension is 2 to 32768 (41_geometry_blockmap.md R150). -/
theorem canon_bounds (r : BitVec 16) : 2 ≤ canon r.toNat ∧ canon r.toNat ≤ 32768 := by
  have := r.isLt
  unfold canon
  dsimp only
  split_ifs <;> omega

theorem canon_toNat_ofNat (r : BitVec 16) : (BitVec.ofNat 16 (canon r.toNat)).toNat = canon r.toNat := by
  rw [BitVec.toNat_ofNat, Nat.mod_eq_of_lt ((canon_bounds r).2.trans_lt (by norm_num))]

theorem packElem_phi (v : Word64) : packElem .phi v = v := by
  simp [packElem, elemBits]

theorem buildPhi_phiShape (s : State) :
    (buildPhi s).phiShape.w.toNat = s.bw ∧ (buildPhi s).phiShape.h.toNat = s.bh :=
  ⟨canon_toNat_ofNat _, canon_toNat_ofNat _⟩

theorem buildPhi_basis (s : State) : (buildPhi s).basis = s.basis := (sameOutside_buildPhi s).basis

/-- Building the tensor leaves it the function of the shape it records, whatever stood there (43_dct.md R192). -/
theorem tensorSound_buildPhi (s : State) : TensorSound (buildPhi s) := by
  intro _ n hn
  obtain ⟨hw, hh⟩ := buildPhi_phiShape s
  rw [hw, hh] at hn ⊢
  have hn' : n < s.area * s.area := by rwa [State.area, ← pow_two]
  rw [buildPhi_elem, buildPhi_basis, State.elem_writeFrom, if_pos ⟨n.zero_le, by omega⟩, packElem_phi, Nat.sub_zero]

/-- The tensor invariant speaks of PHI_VALID, PHISHAPE, the basis and PHI. -/
theorem TensorSound.of_frame {s t : State} (h : TensorSound s) (hv : t.status.phiValid = s.status.phiValid)
    (hp : t.phiShape = s.phiShape) (hb : t.basis = s.basis) (he : ∀ n, t.elem .phi n = s.elem .phi n) : TensorSound t := by
  intro ht n hn
  rw [hp] at hn ⊢
  rw [he, hb]
  exact h (hv ▸ ht) n hn

theorem TensorSound.of_phiInvalid {s : State} (h : s.status.phiValid = false) : TensorSound s :=
  fun hp => absurd hp (by simp [h])

theorem tensorSound_ensurePhi {s : State} (h : TensorSound s) : TensorSound (ensurePhi s) := by
  rcases ensurePhi_cases s with ⟨-, he⟩ | ⟨-, he⟩ <;> rw [he]
  · exact h
  · exact tensorSound_buildPhi s

/-- DCT leaves the slot as the rebuild on demand does. -/
theorem tensorSound_effectDct (ch : Channel) (k : Nat) {s : State} (h : TensorSound s) : TensorSound (effectDct ch k s) :=
  (tensorSound_ensurePhi h).of_frame (by simp [effectDct, dctFlags]) (by simp [effectDct]) (by simp [effectDct])
    (effectDct_elem ch k s (by decide))

/-- An effect that does not write PHI leaves PHI_VALID and PHISHAPE. -/
theorem effectOf_phiSlot {i : Instr} {s : State} (h : ∀ p ∈ writeSet s i, Buf.phi ≠ p.buf) :
    (effectOf i s).status.phiValid = s.status.phiValid ∧ (effectOf i s).phiShape = s.phiShape := by
  cases i with
  | dctinit => exact absurd rfl (h ⟨.phi, 0, s.area * s.area⟩ (by simp [writeSet]))
  | dct ch k =>
    rcases ensurePhi_cases s with ⟨-, he⟩ | ⟨hp, -⟩
    · simp [effectOf, effectDct, dctFlags, he]
    · exact absurd rfl (h ⟨.phi, 0, s.area * s.area⟩ (by simp [writeSet, hp]))
  | svd =>
    cases ha : svdSolver s.bh s.bw (coefMatrix s) <;> simp [effectOf, effectSvd, storeSvd, ha, svdDoneFlags, svdFailFlags]
  | mapgen => simp [effectOf, effectMapgen, mapFlags]
  | _ => simp [effectOf, effectRgb2yuv, effectYuv2rgb, effectDwt, effectIdwt, effectIdct, effectIsvd]

theorem TensorSound.effectOf_other {i : Instr} {s : State} (hs : TensorSound s) (h : ∀ p ∈ writeSet s i, Buf.phi ≠ p.buf) :
    TensorSound (effectOf i s) := by
  obtain ⟨hv, hp⟩ := effectOf_phiSlot h
  exact hs.of_frame hv hp (sameOutside_effect i s).basis (effectOf_elem_other i s h)

/-- DCTINIT and DCT rebuild the tensor where they write it; no other command touches the slot. -/
theorem tensorSound_effectOf (i : Instr) {s : State} (h : TensorSound s) : TensorSound (effectOf i s) := by
  cases i with
  | dctinit => exact tensorSound_buildPhi s
  | dct ch k => exact tensorSound_effectDct ch k h
  | _ => exact h.effectOf_other (by simp [writeSet])

theorem tensorSound_dataInvariant : DataInvariant TensorSound where
  sameData h hs := hs.of_frame h.phiValid h.phiShape h.basis (h.elem .phi)
  effect i _ hs := tensorSound_effectOf i hs
  portWrite _ s b hb hs :=
    hs.of_frame (by simp) (by simp) (by simp) fun n =>
      s.elem_writeFrom_other (by rintro rfl; exact absurd hb (by decide)) _ _ _ n
  imgDim _ _ hs := hs
  blkReq _ _ hs := hs
  softReset _ := .of_phiInvalid (by rw [softReset_status]; rfl)
  hardReset _ := .of_phiInvalid rfl

/-- Settles O57: the tensor is built for the shape recorded with it, and nothing else writes PHI, PHISHAPE or PHI_VALID but the
resets, which clear PHI_VALID. -/
theorem stepKeepsTensorSound : Obligations.StepKeepsTensorSound :=
  fun _ _ => tensorSound_dataInvariant.step_keeps

/-! ### The reset state -/

/-- After reset no flag is set, so each clause of the control invariant but ACCINFO's has a false premise. -/
theorem controlSound_reset : ControlSound State.reset := by
  refine ⟨⟨?_, ?_, ?_, ?_⟩, ?_, ?_, ?_, ?_⟩ <;> simp [State.reset, Status.reset, CommandAccepted]

theorem parametersLegal_reset : ParametersLegal State.reset := by
  unfold ParametersLegal
  decide +kernel

/-- Settles O53: after reset no flag is set and no element is written. -/
theorem resetStateIsSound : Obligations.ResetStateIsSound :=
  ⟨controlSound_reset, .of_mapInvalid rfl, .of_phiInvalid rfl, reset_memory_canonical, parametersLegal_reset⟩

end Sys2Proof.Machine
end

section
/-! SUPPORT. The host's writes of single registers, by offset, and the packing of two dimensions (statements O12, O28, O47). -/

namespace Sys2Proof.Machine

theorem step_write {s : State} {off : BitVec 8} {bits : Nat} {v : Word64} {rest : List Event}
    (h : s.events = .write off bits v :: rest) : step s = hostWrite off bits v { s with events := rest } :=
  step_of_cons h

/-- Settles O12: the step is `writeStatus`, whatever BUSY is. -/
theorem statusWriteClearsOnesOnly : Obligations.StatusWriteClearsOnesOnly :=
  fun _ _ _ h => step_write h

/-! ### The derived registers -/

theorem packDims_toNat {w h : Nat} (hw : w < 2 ^ 16) (hh : h < 2 ^ 16) : (packDims w h).toNat = w + 2 ^ 16 * h := by
  rw [packDims, BitVec.toNat_ofNat, Nat.mul_comm h]
  omega

theorem totBlk_le (s : State) : s.totBlk ≤ 2 ^ 28 :=
  calc s.totBlk ≤ 32768 / 2 * (32768 / 2) :=
        Nat.mul_le_mul (Nat.div_le_div s.wWave_le (canon_bounds _).1 (by decide))
          (Nat.div_le_div s.hWave_le (canon_bounds _).1 (by decide))
    _ = 2 ^ 28 := by norm_num

/-- The registers that ignore a host write (20_memory.md R83). -/
theorem hostWrite_readOnly {off : BitVec 8} (h : off ∈ [0x00#8, 0x08, 0x20, 0x40, 0x48, 0x50, 0x58, 0x60, 0x80]) (v : Word64)
    (s : State) : hostWrite off 64 v s = .next s := by
  simp only [List.mem_cons, List.not_mem_nil, or_false] at h
  rcases h with rfl | rfl | rfl | rfl | rfl | rfl | rfl | rfl | rfl <;> rfl

/-- Settles O28: the fields fit because a canonical dimension, WWAVE and HWAVE are at most 2^15. -/
theorem derivedRegistersRead : Obligations.DerivedRegistersRead := by
  refine ⟨fun s => ?_, by decide +kernel, by decide +kernel, by decide +kernel, fun s rest v off hoff h => ?_⟩
  · obtain ⟨hbw, hbw'⟩ := canon_bounds s.blkReq.w
    obtain ⟨hbh, hbh'⟩ := canon_bounds s.blkReq.h
    have hw := s.wWave_le
    have hh := s.hWave_le
    have ht := totBlk_le s
    refine ⟨packDims_toNat ?_ ?_, hbw, hbw', hbh, hbh', packDims_toNat ?_ ?_, hw, hh, ?_, ht⟩
    · exact hbw'.trans_lt (by norm_num)
    · exact hbh'.trans_lt (by norm_num)
    · exact hw.trans_lt (by norm_num)
    · exact hh.trans_lt (by norm_num)
    · exact (BitVec.toNat_ofNat _ _).trans (Nat.mod_eq_of_lt (ht.trans_lt (by norm_num)))
  · rw [step_write h, hostWrite_readOnly hoff]

/-! ### The geometry registers and the port's -/

theorem unlessBusy_of_busy (f : State → State) {s : State} (h : s.status.busy = true) :
    unlessBusy f s = accessRefused .busy s := by
  simp [unlessBusy, h, flagAccErr, accessRefused]

theorem unlessBusy_of_idle (f : State → State) {s : State} (h : s.status.busy = false) : unlessBusy f s = f s := by
  simp [unlessBusy, h]

theorem hostWrite_imgDim (v : Word64) (s : State) : hostWrite 0x30 64 v s = .next (unlessBusy (writeImgDim v) s) := rfl

theorem hostWrite_blkReq (v : Word64) (s : State) : hostWrite 0x38 64 v s = .next (unlessBusy (writeBlkReq v) s) := rfl

theorem hostWrite_bufSel (v : Word64) (s : State) : hostWrite 0x68 64 v s = .next (unlessBusy (writeBufSel v) s) := rfl

theorem hostWrite_bufIdx (v : Word64) (s : State) : hostWrite 0x70 64 v s = .next (unlessBusy (writeBufIdx v) s) := rfl

theorem writtenDims_w (v : Word64) : (writtenDims v).w.toNat = v.toNat % 2 ^ 16 := by
  simp [writtenDims]

theorem writtenDims_h (v : Word64) : (writtenDims v).h.toNat = v.toNat / 2 ^ 16 % 2 ^ 16 := by
  simp [writtenDims, Nat.shiftRight_eq_div_pow]

/-- The two 16-bit fields together read as the low half of what was written. -/
theorem packDims_writtenDims (v : Word64) :
    (packDims (writtenDims v).w.toNat (writtenDims v).h.toNat).toNat = v.toNat % 2 ^ 32 := by
  rw [packDims_toNat (writtenDims v).w.isLt (writtenDims v).h.isLt, writtenDims_w, writtenDims_h]
  omega

/-- A write that BUSY refuses (20_memory.md R83, R91): what the step does in both cases. -/
theorem step_guardedWrite {s : State} {off : BitVec 8} {v : Word64} {rest : List Event} {f : State → State}
    (hoff : ∀ u, hostWrite off 64 v u = .next (unlessBusy f u)) (h : s.events = .write off 64 v :: rest) :
    (s.status.busy = true → step s = .next (accessRefused .busy { s with events := rest })) ∧
    (s.status.busy = false → step s = .next (f { s with events := rest })) := by
  rw [step_write h, hoff]
  exact ⟨fun hb => congrArg _ (unlessBusy_of_busy f hb), fun hb => congrArg _ (unlessBusy_of_idle f hb)⟩

theorem writeBufSel_stored (v : Word64) (s : State) :
    (writeBufSel v s).bufSel.buf.toNat = v.toNat % 2 ^ 4 ∧ (writeBufSel v s).bufSel.ch.toNat = v.toNat / 2 ^ 4 % 2 ^ 2 := by
  simp [writeBufSel, Nat.shiftRight_eq_div_pow]

theorem readReg_writeBufSel (v : Word64) (s : State) : (readReg (writeBufSel v s) .bufSel).toNat = v.toNat % 2 ^ 6 := by
  obtain ⟨hbuf, hch⟩ := writeBufSel_stored v s
  rw [readReg, hbuf, hch, BitVec.toNat_ofNat]
  omega

theorem writeBufIdx_stored (v : Word64) (s : State) : (writeBufIdx v s).bufIdx.toNat = v.toNat % 2 ^ 32 := by
  simp [writeBufIdx]

theorem readReg_writeBufIdx (v : Word64) (s : State) : (readReg (writeBufIdx v s) .bufIdx).toNat = v.toNat % 2 ^ 32 := by
  rw [readReg, BitVec.toNat_setWidth, writeBufIdx_stored]
  omega

/-- Settles O47: each register's write is one of the four guarded writes above. -/
theorem geometryWritesClearValidFlags : Obligations.GeometryWritesClearValidFlags := by
  refine ⟨by decide +kernel, by decide +kernel, by decide +kernel, by decide +kernel, ?_, ?_⟩
  · intro s rest v r hr h
    rcases List.mem_pair.mp hr with rfl | rfl
    · obtain ⟨hbusy, hidle⟩ := step_guardedWrite (hostWrite_bufSel v) h
      obtain ⟨hbuf, hch⟩ := writeBufSel_stored v { s with events := rest }
      exact ⟨hbusy, fun hb => ⟨_, hidle hb, fun _ => ⟨hbuf, hch, readReg_writeBufSel v _⟩, by simp, rfl⟩⟩
    · obtain ⟨hbusy, hidle⟩ := step_guardedWrite (hostWrite_bufIdx v) h
      exact ⟨hbusy, fun hb =>
        ⟨_, hidle hb, by simp, fun _ => ⟨writeBufIdx_stored v _, readReg_writeBufIdx v _⟩, rfl⟩⟩
  · intro s rest v r hr h
    rcases List.mem_pair.mp hr with rfl | rfl
    · obtain ⟨hbusy, hidle⟩ := step_guardedWrite (hostWrite_imgDim v) h
      exact ⟨hbusy, fun hb =>
        ⟨_, hidle hb, packDims_writtenDims v, fun _ => ⟨writtenDims_w v, writtenDims_h v⟩, by simp, rfl⟩⟩
    · obtain ⟨hbusy, hidle⟩ := step_guardedWrite (hostWrite_blkReq v) h
      exact ⟨hbusy, fun hb =>
        ⟨_, hidle hb, packDims_writtenDims v, by simp, fun _ => ⟨writtenDims_w v, writtenDims_h v⟩, rfl⟩⟩

end Sys2Proof.Machine
end

section
/-! SUPPORT. The host's accesses: which offset reaches a register, what the registers read, and what the BUFDATA port does in
every case (statements O42 to O46 and O48). -/

namespace Sys2Proof.Machine

theorem step_read {s : State} {off : BitVec 8} {bits : Nat} {rest : List Event} (h : s.events = .read off bits :: rest) :
    step s = .next (hostRead off bits { s with events := rest }) :=
  step_of_cons h

/-- `writeFrom` leaves every element outside the run it writes. -/
theorem State.elem_writeFrom_outside (s : State) {b b' : Buf} {base n j : Nat}
    (h : b = b' → j < base ∨ base + n ≤ j) (val : Nat → Word64) : (s.writeFrom b base n val).elem b' j = s.elem b' j := by
  by_cases hb : b = b'
  · have := h hb
    subst hb
    rw [s.elem_writeFrom, if_neg (by omega)]
  · exact s.elem_writeFrom_other (Ne.symm hb) _ _ _ _

/-! ### Refused accesses -/

theorem presentCommand_of_busy (w : Word32) {s : State} (h : s.status.busy = true) :
    presentCommand w s = .next (accessRefused .busy s) := by
  rw [presentCommand, if_pos h]
  rfl

theorem flagAccErr_eq_accessRefused (c : AccError) (s : State) : flagAccErr c s = accessRefused c s := rfl

theorem refuseRead_eq_accessRefused (c : AccError) (s : State) :
    refuseRead c s = { accessRefused c s with hostData := 0 } := rfl

/-- Every register stands at a multiple of 8 below 0x88 (20_memory.md R80). -/
theorem regAt_some {off : BitVec 8} {r : Reg} (h : regAt off = some r) : off.toNat % 8 = 0 ∧ off.toNat < 0x88 := by
  unfold regAt at h
  split at h <;> first | omega | contradiction

/-- An access of another width, at another offset, reaches no register (20_memory.md R85, 10_state.md R52). -/
theorem hostTarget_eq_none {off : BitVec 8} {bits : Nat} (h : bits ≠ 64 ∨ off.toNat % 8 ≠ 0 ∨ 0x88 ≤ off.toNat) :
    hostTarget off bits = none := by
  unfold hostTarget
  split_ifs with hbits
  · cases hr : regAt off with
    | none => rfl
    | some r =>
      obtain ⟨haligned, hbelow⟩ := regAt_some hr
      omega
  · rfl

theorem hostRead_of_noTarget {off : BitVec 8} {bits : Nat} (h : hostTarget off bits = none) (s : State) :
    hostRead off bits s = refuseRead .badAccess s := by
  simp [hostRead, h]

theorem hostWrite_of_noTarget {off : BitVec 8} {bits : Nat} (h : hostTarget off bits = none) (v : Word64) (s : State) :
    hostWrite off bits v s = .next (flagAccErr .badAccess s) := by
  simp [hostWrite, h]

/-- Settles O43: such an access reaches no register, and both transactions refuse it with code 5. -/
theorem misalignedAccessesAreRefused : Obligations.MisalignedAccessesAreRefused := by
  intro s rest off bits hbad
  have hnone := hostTarget_eq_none hbad
  refine ⟨fun h => ?_, fun v h => ?_⟩
  · rw [step_read h, hostRead_of_noTarget hnone, refuseRead_eq_accessRefused]
  · rw [step_write h, hostWrite_of_noTarget hnone, flagAccErr_eq_accessRefused]

/-! ### The BUFDATA port, case by case -/

section Port

variable {s : State} {b : Buf}

theorem hostRead_bufData (s : State) : hostRead 0x78 64 s = bufPortRead s := rfl

theorem hostWrite_bufData (v : Word64) (s : State) : hostWrite 0x78 64 v s = .next (bufPortWrite v s) := rfl

theorem bufPortRead_of_busy (h : s.status.busy = true) : bufPortRead s = refuseRead .busy s := by
  simp [bufPortRead, h]

theorem bufPortRead_of_illegal (h : s.status.busy = false) (hsel : selectBuf s.bufSel = none) :
    bufPortRead s = refuseRead .badSelect s := by
  simp [bufPortRead, h, hsel]

theorem bufPortRead_of_outside (h : s.status.busy = false) (hsel : selectBuf s.bufSel = some b)
    (hi : s.capacity b ≤ s.bufIdx.toNat) : bufPortRead s = refuseRead .indexRange s := by
  simp [bufPortRead, h, hsel, hi]

theorem bufPortRead_of_inside (h : s.status.busy = false) (hsel : selectBuf s.bufSel = some b)
    (hi : s.bufIdx.toNat < s.capacity b) :
    bufPortRead s = bumpIndex (returnData (s.elem b s.bufIdx.toNat) s) := by
  simp [bufPortRead, h, hsel, hi]

theorem bufPortWrite_of_busy (v : Word64) (h : s.status.busy = true) : bufPortWrite v s = flagAccErr .busy s := by
  simp [bufPortWrite, h]

theorem bufPortWrite_of_illegal (v : Word64) (h : s.status.busy = false) (hsel : selectBuf s.bufSel = none) :
    bufPortWrite v s = flagAccErr .badSelect s := by
  simp [bufPortWrite, h, hsel]

theorem bufPortWrite_of_readOnly (v : Word64) (h : s.status.busy = false) (hsel : selectBuf s.bufSel = some b)
    (hro : hostReadOnly b = true) : bufPortWrite v s = flagAccErr .readOnly s := by
  simp [bufPortWrite, h, hsel, hro]

theorem bufPortWrite_of_outside (v : Word64) (h : s.status.busy = false) (hsel : selectBuf s.bufSel = some b)
    (hro : hostReadOnly b = false) (hi : s.capacity b ≤ s.bufIdx.toNat) :
    bufPortWrite v s = flagAccErr .indexRange s := by
  simp [bufPortWrite, h, hsel, hro, hi]

theorem bufPortWrite_of_inside (v : Word64) (h : s.status.busy = false) (hsel : selectBuf s.bufSel = some b)
    (hro : hostReadOnly b = false) (hi : s.bufIdx.toNat < s.capacity b) :
    bufPortWrite v s = bumpIndex (s.writeFrom b s.bufIdx.toNat 1 fun _ => v) := by
  simp [bufPortWrite, h, hsel, hro, hi]

end Port

/-- The host may write every buffer but BMAP and PHI (10_state.md R59, R62). -/
theorem hostReadOnly_iff (b : Buf) : hostReadOnly b = true ↔ b = .bmap ∨ b = .phi := by
  cases b <;> simp [hostReadOnly]

theorem hostReadOnly_eq_false {b : Buf} (hmap : b ≠ .bmap) (hphi : b ≠ .phi) : hostReadOnly b = false :=
  Bool.eq_false_iff.mpr fun h => ((hostReadOnly_iff b).mp h).elim hmap hphi

/-! ### Which selections are legal -/

theorem channelOfBits_eq_none_iff (ch : BitVec 2) : channelOfBits ch = none ↔ ch.toNat = 3 := by
  have := ch.isLt
  interval_cases h : ch.toNat <;> simp [channelOfBits, h]

theorem channelNumber_of_channelOfBits {ch : BitVec 2} {c : Channel} (h : channelOfBits ch = some c) :
    channelNumber c = ch.toNat := by
  have := ch.isLt
  interval_cases hch : ch.toNat <;> simp [channelOfBits, hch] at h <;> simp [← h, channelNumber]

/-- BUF 12 to 15 name no buffer. -/
theorem selectBuf_of_ge {sel : BufSel} (h : 12 ≤ sel.buf.toNat) : selectBuf sel = none := by
  unfold selectBuf
  split <;> first | omega | rfl

/-- The other buffers without banks: BUF alone selects (20_memory.md R87). -/
theorem selectBuf_unbanked {sel : BufSel} (hlt : sel.buf.toNat < 12) (h : ¬(3 ≤ sel.buf.toNat ∧ sel.buf.toNat ≤ 7)) :
    ∃ b, selectBuf sel = some b ∧ bufCode b = sel.buf.toNat := by
  have hbuf : sel.buf.toNat = 0 ∨ sel.buf.toNat = 1 ∨ sel.buf.toNat = 2 ∨ sel.buf.toNat = 8 ∨ sel.buf.toNat = 9 ∨
      sel.buf.toNat = 10 ∨ sel.buf.toNat = 11 := by omega
  rcases hbuf with h | h | h | h | h | h | h <;> simp [selectBuf, bufCode, h]

/-- The five channel buffers: CH names the bank (20_memory.md R87). -/
theorem selectBuf_banked {sel : BufSel} (h : 3 ≤ sel.buf.toNat ∧ sel.buf.toNat ≤ 7) :
    ∃ bank : Channel → Buf, selectBuf sel = (channelOfBits sel.ch).map bank ∧
      ∀ c, bufCode (bank c) = sel.buf.toNat + 16 * channelNumber c := by
  have hbuf : sel.buf.toNat = 3 ∨ sel.buf.toNat = 4 ∨ sel.buf.toNat = 5 ∨ sel.buf.toNat = 6 ∨ sel.buf.toNat = 7 := by omega
  rcases hbuf with h | h | h | h | h
  · exact ⟨.chan, by simp [selectBuf, h], by simp [bufCode, h]⟩
  · exact ⟨.sba, by simp [selectBuf, h], by simp [bufCode, h]⟩
  · exact ⟨.sbh, by simp [selectBuf, h], by simp [bufCode, h]⟩
  · exact ⟨.sbv, by simp [selectBuf, h], by simp [bufCode, h]⟩
  · exact ⟨.sbd, by simp [selectBuf, h], by simp [bufCode, h]⟩

/-- `SelLegal` (20_memory.md R87). -/
theorem selectBuf_eq_none_iff (sel : BufSel) :
    selectBuf sel = none ↔ 12 ≤ sel.buf.toNat ∨ (3 ≤ sel.buf.toNat ∧ sel.buf.toNat ≤ 7 ∧ sel.ch.toNat = 3) := by
  rcases Nat.lt_or_ge sel.buf.toNat 12 with hlt | hge
  · by_cases hbanked : 3 ≤ sel.buf.toNat ∧ sel.buf.toNat ≤ 7
    · obtain ⟨bank, hsel, -⟩ := selectBuf_banked hbanked
      rw [hsel, Option.map_eq_none_iff, channelOfBits_eq_none_iff]
      omega
    · obtain ⟨b, hsel, -⟩ := selectBuf_unbanked hlt hbanked
      simp only [hsel, reduceCtorEq, false_iff]
      omega
  · exact iff_of_true (selectBuf_of_ge hge) (.inl hge)

/-- A legal selection names its buffer's number and its bank's. -/
theorem bufCode_of_selectBuf {sel : BufSel} {b : Buf} (h : selectBuf sel = some b) :
    bufCode b = sel.buf.toNat + (if 3 ≤ sel.buf.toNat ∧ sel.buf.toNat ≤ 7 then 16 * sel.ch.toNat else 0) := by
  split_ifs with hbanked
  · obtain ⟨bank, hsel, hcode⟩ := selectBuf_banked hbanked
    obtain ⟨c, hc, rfl⟩ := Option.map_eq_some_iff.mp (hsel.symm.trans h)
    rw [hcode, channelNumber_of_channelOfBits hc]
  · rcases Nat.lt_or_ge sel.buf.toNat 12 with hlt | hge
    · obtain ⟨b', hsel, hcode⟩ := selectBuf_unbanked hlt hbanked
      obtain rfl := Option.some.inj (hsel.symm.trans h)
      exact hcode
    · simp [selectBuf_of_ge hge] at h

/-! ### What the port does -/

theorem packElem_toNat_lt (b : Buf) (v : Word64) : (packElem b v).toNat < 2 ^ elemBits b := by
  rw [packElem, BitVec.toNat_setWidth]
  exact (Nat.mod_le _ _).trans_lt (BitVec.isLt _)

/-- An element reads in the low bits of the word, the rest 0 (20_memory.md R86). -/
theorem elemValue_toNat_lt (b : Buf) (i : Nat) (e : Elem) : (elemValue b i e).toNat < 2 ^ elemBits b := by
  cases e <;> exact packElem_toNat_lt b _

/-- Settles O44: the selections are told apart by BUF's range, the reads by `bufPortRead`'s cases. -/
theorem bufferPortReads : Obligations.BufferPortReads := by
  refine ⟨selectBuf_eq_none_iff, fun _ _ => bufCode_of_selectBuf, fun s rest h => ?_⟩
  dsimp only
  rw [step_read h, hostRead_bufData]
  refine ⟨fun hb => ?_, fun hb hsel => ?_, fun b hb hsel => ⟨fun hi => ?_, fun hi => ⟨elemValue_toNat_lt _ _ _, ?_⟩⟩⟩
  · exact congrArg _ (bufPortRead_of_busy hb)
  · exact congrArg _ (bufPortRead_of_illegal hb hsel)
  · exact congrArg _ (bufPortRead_of_outside hb hsel (by exact hi))
  · exact congrArg _ (bufPortRead_of_inside hb hsel (by exact hi))

/-- The port's write seen from outside: one element of one buffer takes the value (20_memory.md R89). -/
theorem State.elem_writeOne (s : State) (b : Buf) (i : Nat) (v : Word64) :
    (s.writeFrom b i 1 fun _ => v).elem b i = packElem b v := by
  simp [State.elem_writeFrom]

theorem State.elem_writeOne_other (s : State) {b b' : Buf} {i j : Nat} (v : Word64) (h : b' ≠ b ∨ j ≠ i) :
    (s.writeFrom b i 1 fun _ => v).elem b' j = s.elem b' j :=
  s.elem_writeFrom_outside (fun e => by rcases h with h | h <;> [exact absurd e.symm h; omega]) _

theorem State.elem_bumpIndex (s : State) (b : Buf) (i : Nat) : (bumpIndex s).elem b i = s.elem b i :=
  State.elem_congr rfl (bumpIndex_buf s b) i

/-- The port's write is one buffer and the index. -/
theorem bumpIndex_writeOne (s : State) (b : Buf) (i : Nat) (v : Word64) :
    bumpIndex (s.writeFrom b i 1 fun _ => v) =
      { s.setBuf b ((s.writeFrom b i 1 fun _ => v).buf b) with bufIdx := s.bufIdx + 1 } := by
  conv_lhs => rw [State.writeFrom_eq_setBuf]
  simp [bumpIndex]

/-- Settles O45, by `bufPortWrite`'s cases; in the last one the write stores one element and counts the index. -/
theorem bufferPortWrites : Obligations.BufferPortWrites := by
  intro s rest v h
  dsimp only
  rw [step_write h, hostWrite_bufData]
  refine ⟨fun hb => ?_, fun hb hsel => ?_, fun b hb hsel => ⟨fun hro => ?_, fun hmap hphi hi => ?_, fun hmap hphi hi => ?_⟩⟩
  · exact congrArg _ (bufPortWrite_of_busy v hb)
  · exact congrArg _ (bufPortWrite_of_illegal v hb hsel)
  · exact congrArg _ (bufPortWrite_of_readOnly v hb hsel ((hostReadOnly_iff b).mpr hro))
  · exact congrArg _ (bufPortWrite_of_outside v hb hsel (hostReadOnly_eq_false hmap hphi) (by exact hi))
  · refine ⟨_, congrArg _ (bufPortWrite_of_inside v hb hsel (hostReadOnly_eq_false hmap hphi) (by exact hi)), ?_, ?_, ?_⟩
    · exact (State.elem_bumpIndex _ _ _).trans (State.elem_writeOne _ _ _ _)
    · exact fun b' i hother => (State.elem_bumpIndex _ _ _).trans (State.elem_writeOne_other _ v hother)
    · rw [bumpIndex_buf]
      exact bumpIndex_writeOne _ _ _ _

/-- Settles O48: each closed access has BUSY as its first case. -/
theorem busyEngineRefusesAccesses : Obligations.BusyEngineRefusesAccesses := by
  intro s rest hb
  refine ⟨fun off hoff v h => ?_, fun h => ?_⟩
  · simp only [List.mem_cons, List.not_mem_nil, or_false] at hoff
    rcases hoff with rfl | rfl | rfl | rfl | rfl | rfl
    · exact (step_write h).trans (presentCommand_of_busy _ hb)
    · exact (step_guardedWrite (hostWrite_imgDim v) h).1 hb
    · exact (step_guardedWrite (hostWrite_blkReq v) h).1 hb
    · exact (step_guardedWrite (hostWrite_bufSel v) h).1 hb
    · exact (step_guardedWrite (hostWrite_bufIdx v) h).1 hb
    · exact (bufferPortWrites s rest v h).1 hb
  · obtain ⟨-, -, hreads⟩ := bufferPortReads
    exact (hreads s rest h).1 hb

/-! ### A write and its read -/

theorem run_succ {s t : State} (h : step s = .next t) (k : Nat) : Sys2Proof.core.run (k + 1) s = Sys2Proof.core.run k t := by
  have hcore : Sys2Proof.core.step s = .next t := h
  simp only [Host.Core.run, hcore]

theorem State.capacity_congr {s t : State} (h : t.cap = s.cap) (b : Buf) : t.capacity b = s.capacity b := by
  simp only [State.capacity, State.maxPix, State.bMax, h]

/-- An idle engine whose index is written and whose port is then read returns the element at that index. -/
theorem run_writeIndex_readPort {s : State} {b : Buf} {w : Word64} (h : s.events = [.write 0x70 64 w, .read 0x78 64])
    (hb : s.status.busy = false) (hsel : selectBuf s.bufSel = some b) (hi : (w.extractLsb' 0 32).toNat < s.capacity b) :
    ∃ t, Sys2Proof.core.run 2 s = .next t ∧ t.hostData = s.elem b (w.extractLsb' 0 32).toNat ∧
      t.bufIdx = w.extractLsb' 0 32 + 1 ∧ t.status = s.status := by
  obtain ⟨-, hindex⟩ := step_guardedWrite (hostWrite_bufIdx w) h
  obtain ⟨-, -, hreads⟩ := bufferPortReads
  obtain ⟨-, -, hload⟩ := hreads (writeBufIdx w { s with events := [.read 0x78 64] }) [] rfl
  obtain ⟨-, hinside⟩ := hload b hb hsel
  obtain ⟨-, hread⟩ := hinside hi
  have hsame : SameData s (writeBufIdx w { s with events := [.read 0x78 64] }) := rfl
  exact ⟨_, (run_succ (hindex hb) 1).trans (run_succ hread 0), hsame.elem b _, rfl, rfl⟩

/-- Settles O46: the element the first step stores is the one the third reads, at the index the second restores. -/
theorem portWriteReadsBack : Obligations.PortWriteReadsBack := by
  intro s b v w hb hsel hmap hphi hi hw h
  obtain ⟨-, -, hwrites⟩ := bufferPortWrites s _ v h
  obtain ⟨-, -, hstore⟩ := hwrites b hb hsel
  obtain ⟨u, hu, helem, -, hframe⟩ := hstore hmap hphi hi
  have hstatus : u.status = s.status := (congrArg State.status hframe).trans (by simp)
  have hbufSel : u.bufSel = s.bufSel := (congrArg State.bufSel hframe).trans (by simp)
  have hcap : u.cap = s.cap := (congrArg State.cap hframe).trans (by simp)
  have hevents : u.events = [.write 0x70 64 w, .read 0x78 64] := (congrArg State.events hframe).trans (by simp)
  obtain ⟨t, hrun, hdata, hidx, hkept⟩ := run_writeIndex_readPort (b := b) hevents (by rw [hstatus, hb])
    (by rw [hbufSel, hsel]) (by rwa [hw, State.capacity_congr hcap])
  refine ⟨t, (run_succ hu 2).trans hrun, ?_, ?_, hkept.trans hstatus⟩
  · rw [hdata, hw, helem]
  · rw [hidx, hw]

/-! ### What a register read returns -/

/-- The bits of `x` from `n` on are 0 and it reads as `v`. -/
def ReadsBelow (n : Nat) (x : Word64) (v : Nat) : Prop := x.toNat = v ∧ v < 2 ^ n

theorem readsBelow_bitAt {n : Nat} (hn : n < 64) (b : Bool) : ReadsBelow (n + 1) (bitAt n b) (if b then 2 ^ n else 0) := by
  have hlt : 2 ^ n < 2 ^ 64 := Nat.pow_lt_pow_right (by decide) hn
  cases b
  · simp [ReadsBelow, bitAt]
  · simpa [ReadsBelow, bitAt, Nat.pow_lt_pow_right] using hlt

/-- A flag placed above the bits in use adds its weight. -/
theorem ReadsBelow.or_bitAt {n m v : Nat} {x : Word64} (h : ReadsBelow n x v) (hnm : n ≤ m) (hm : m < 64) (b : Bool) :
    ReadsBelow (m + 1) (x ||| bitAt m b) (v + if b then 2 ^ m else 0) := by
  obtain ⟨hv, hlt⟩ := h
  obtain ⟨hbit, hbitlt⟩ := readsBelow_bitAt hm b
  have hlt' : v < 2 ^ m := hlt.trans_le (Nat.pow_le_pow_right (by decide) hnm)
  refine ⟨?_, ?_⟩
  · rw [BitVec.toNat_or, hv, hbit]
    cases b
    · simp
    · have := Nat.two_pow_add_eq_or_of_lt hlt' 1
      simp only [Nat.mul_one] at this
      rw [if_pos rfl, Nat.lor_comm, ← this, Nat.add_comm]
  · have : 2 ^ (m + 1) = 2 ^ m + 2 ^ m := by ring
    split_ifs <;> omega

theorem packCtrl_toNat (c : Ctrl) :
    (packCtrl c).toNat = (if c.ieDone then 2 ^ 1 else 0) + (if c.ieFault then 2 ^ 2 else 0) :=
  ((readsBelow_bitAt (by decide) c.ieDone).or_bitAt le_rfl (by decide) c.ieFault).1

/-- Each flag of STATUS stands at its bit (10_state.md R38). -/
theorem packStatus_toNat (f : Status) :
    (packStatus f).toNat =
      (if f.busy then 2 ^ 0 else 0) + (if f.done then 2 ^ 1 else 0) + (if f.fault then 2 ^ 2 else 0) +
        (if f.svdFail then 2 ^ 3 else 0) + (if f.accErr then 2 ^ 4 else 0) + (if f.mapValid then 2 ^ 8 else 0) +
        (if f.phiValid then 2 ^ 9 else 0) + (if f.dctValid then 2 ^ 10 else 0) + (if f.svdValid then 2 ^ 11 else 0) :=
  ((readsBelow_bitAt (by decide) f.busy).or_bitAt le_rfl (by decide) f.done
    |>.or_bitAt le_rfl (by decide) f.fault |>.or_bitAt le_rfl (by decide) f.svdFail
    |>.or_bitAt le_rfl (by decide) f.accErr |>.or_bitAt (by decide) (by decide) f.mapValid
    |>.or_bitAt le_rfl (by decide) f.phiValid |>.or_bitAt le_rfl (by decide) f.dctValid
    |>.or_bitAt le_rfl (by decide) f.svdValid).1

/-- Two fields of a register, the upper from bit `n` on, that fit in 64 bits. -/
theorem toNat_ofNat_fields {n a b : Nat} (ha : a < 2 ^ n) (hn : n ≤ 64) (hb : b < 2 ^ (64 - n)) :
    (BitVec.ofNat 64 (a + b * 2 ^ n)).toNat = a + 2 ^ n * b := by
  rw [BitVec.toNat_ofNat, Nat.mul_comm b, Nat.mod_eq_of_lt]
  calc a + 2 ^ n * b = 2 ^ n * b + a := Nat.add_comm _ _
    _ < 2 ^ n * 2 ^ (64 - n) := by
      rw [Nat.mul_comm, Nat.mul_comm (2 ^ n)]
      exact mul_add_lt_mul hb ha
    _ = 2 ^ 64 := by rw [← Nat.pow_add, Nat.add_sub_cancel' hn]

theorem faultCode_lt (c : Option CmdFault) : (c.map faultCode).getD 0 < 2 ^ 32 := by
  rcases c with _ | c
  · decide
  · cases c <;> decide

theorem accCode_lt (c : Option AccError) : (c.map accCode).getD 0 < 2 ^ 64 := by
  rcases c with _ | c
  · decide
  · cases c <;> decide

/-- A read of a register other than BUFDATA returns its value and does nothing else (20_memory.md R82, R90). -/
theorem hostRead_of_regAt {off : BitVec 8} {r : Reg} (hr : regAt off = some r) (hdata : r ≠ .bufData) (s : State) :
    hostRead off 64 s = returnData (readReg s r) s := by
  have htarget : hostTarget off 64 = some r := (if_pos rfl).trans hr
  rw [hostRead, htarget]
  cases r <;> first | rfl | exact absurd rfl hdata

/-- Settles O42: each packed register is its fields side by side, and its read is `returnData`. -/
theorem registerReadsHaveNoSideEffect : Obligations.RegisterReadsHaveNoSideEffect := by
  refine ⟨fun s => ?_, fun s rest off r hr hdata h => ?_⟩
  · refine ⟨rfl, ?_, packCtrl_toNat _, packStatus_toNat _, ?_, rfl, ?_, ?_, ?_, ?_, ?_, ?_, ?_⟩
    · exact toNat_ofNat_fields s.cap.maxPix.isLt (by decide) (s.cap.bMax.isLt.trans (by decide))
    · refine (toNat_ofNat_fields (faultCode_lt _) (by decide) s.faultInfo.cmdWord.isLt).trans (congrArg (· + _) ?_)
      rcases s.faultInfo.code with _ | c
      · rfl
      · cases c <;> rfl
    · exact packDims_toNat s.imgDim.w.isLt s.imgDim.h.isLt
    · exact packDims_toNat s.blkReq.w.isLt s.blkReq.h.isLt
    · exact toNat_ofNat_fields (by cases s.dctCtx.ch <;> decide) (by decide) (s.dctCtx.k.isLt.trans (by decide))
    · exact packDims_toNat s.phiShape.w.isLt s.phiShape.h.isLt
    · exact toNat_ofNat_fields s.bufSel.buf.isLt (by decide) (s.bufSel.ch.isLt.trans (by decide))
    · exact BitVec.toNat_setWidth_of_le (by decide)
    · refine (BitVec.toNat_ofNat _ _).trans ((Nat.mod_eq_of_lt (accCode_lt _)).trans ?_)
      rcases s.accInfo with _ | c
      · rfl
      · cases c <;> rfl
  · rw [step_read h, hostRead_of_regAt hr hdata]
    rfl

end Sys2Proof.Machine
end

section
/-! SUPPORT. The write set of an accepted command: it lies within the capacities, and the effect changes no element outside it
(statement O60). -/

namespace Sys2Proof.Machine

/-! ### The room a legal geometry gives -/

theorem State.imgOk_iff (s : State) : s.imgOk = true ↔ 1 ≤ s.width ∧ 1 ≤ s.height ∧ s.pixels ≤ s.maxPix := by
  simp [State.imgOk, State.pixels, and_assoc]

theorem State.shapeOk_iff (s : State) : s.shapeOk = true ↔ s.bw ≤ s.bMax ∧ s.bh ≤ s.bMax := by
  simp [State.shapeOk]

section Room

variable {s : State}

theorem State.pixels_le_maxPix (h : s.imgOk = true) : s.pixels ≤ s.maxPix := by
  obtain ⟨-, -, hle⟩ := s.imgOk_iff.mp h
  exact hle

/-- The subbands are no larger than the image (41_geometry_blockmap.md R152, R154). -/
theorem State.waves_le_maxPix (h : s.imgOk = true) : s.waves ≤ s.maxPix := by
  obtain ⟨hw, hh, hle⟩ := s.imgOk_iff.mp h
  have hwave : s.wWave ≤ s.width := by unfold State.wWave; omega
  have hhwave : s.hWave ≤ s.height := by unfold State.hWave; omega
  exact (Nat.mul_le_mul hwave hhwave).trans hle

theorem State.area_le (h : s.shapeOk = true) : s.area ≤ s.bMax ^ 2 := by
  obtain ⟨hw, hh⟩ := s.shapeOk_iff.mp h
  exact (Nat.mul_le_mul hw hh).trans_eq (Nat.pow_two _).symm

theorem State.tensor_le (h : s.shapeOk = true) : s.area * s.area ≤ s.bMax ^ 4 :=
  calc s.area * s.area ≤ s.bMax ^ 2 * s.bMax ^ 2 := Nat.mul_le_mul (State.area_le h) (State.area_le h)
    _ = s.bMax ^ 4 := (Nat.pow_add s.bMax 2 2).symm

theorem State.rank_le (h : s.shapeOk = true) : s.rank ≤ s.bMax := by
  obtain ⟨hw, -⟩ := s.shapeOk_iff.mp h
  exact (Nat.min_le_left _ _).trans hw

/-- The whole blocks fit in the subbands (41_geometry_blockmap.md R158). -/
theorem State.totBlk_mul_area_le (s : State) : s.totBlk * s.area ≤ s.waves :=
  calc s.totBlk * s.area = (s.wWave / s.bw * s.bw) * (s.hWave / s.bh * s.bh) := by
        unfold State.totBlk State.area
        ring
    _ ≤ s.waves := Nat.mul_le_mul (Nat.div_mul_le_self _ _) (Nat.div_mul_le_self _ _)

theorem State.blockSlice_le {k : Nat} (h : k < s.totBlk) : k * s.area + s.area ≤ s.waves :=
  calc k * s.area + s.area = (k + 1) * s.area := (Nat.succ_mul _ _).symm
    _ ≤ s.totBlk * s.area := Nat.mul_le_mul_right _ h
    _ ≤ s.waves := s.totBlk_mul_area_le

end Room

/-- Each command's checks give its write set the room it needs (20_memory.md R99). -/
theorem writeSet_le_capacity {s : State} {i : Instr} (hg : GeometryBound s) (hi : firstFault (acceptChecks s i) = none) :
    ∀ p ∈ writeSet s i, p.base + p.count ≤ s.capacity p.buf := by
  obtain ⟨-, hdct, hsvd⟩ := hg
  rw [firstFault_none_iff] at hi
  cases i with
  | rgb2yuv =>
    have := State.pixels_le_maxPix (hi _ List.mem_cons_self)
    simp [writeSet, State.capacity, this]
  | yuv2rgb =>
    have := State.pixels_le_maxPix (hi _ List.mem_cons_self)
    simp [writeSet, State.capacity, this]
  | mapgen =>
    have := State.waves_le_maxPix (hi _ List.mem_cons_self)
    simp [writeSet, State.capacity, this]
  | dwt ch m =>
    have := State.waves_le_maxPix (hi _ List.mem_cons_self)
    simp [writeSet, State.capacity, this]
  | idwt ch m =>
    have := State.pixels_le_maxPix (hi _ List.mem_cons_self)
    simp [writeSet, State.capacity, this]
  | dctinit =>
    have := State.tensor_le (hi _ List.mem_cons_self)
    simp [writeSet, State.capacity, this]
  | dct ch k =>
    have hshape : s.shapeOk = true := hi (s.shapeOk, .badShape) (by simp [acceptChecks])
    have harea := State.area_le hshape
    have htensor := State.tensor_le hshape
    cases hp : s.phiOk <;> simp [writeSet, State.capacity, hp, harea, htensor]
  | idct =>
    obtain ⟨himg, -, hk, -⟩ := hdct (hi _ List.mem_cons_self)
    have := (State.blockSlice_le hk).trans (State.waves_le_maxPix himg)
    simp [writeSet, State.capacity, this]
  | svd =>
    have hshape : s.shapeOk = true := hi _ List.mem_cons_self
    obtain ⟨hw, hh⟩ := s.shapeOk_iff.mp hshape
    have hr := State.rank_le hshape
    have hu : s.bh * s.rank ≤ s.bMax ^ 2 := (Nat.mul_le_mul hh hr).trans_eq (Nat.pow_two _).symm
    have hv : s.bw * s.rank ≤ s.bMax ^ 2 := (Nat.mul_le_mul hw hr).trans_eq (Nat.pow_two _).symm
    simp [writeSet, State.capacity, hr, hu, hv]
  | isvd =>
    have := State.area_le (hsvd (hi _ List.mem_cons_self))
    simp [writeSet, State.capacity, this]

/-! ### The frame of an effect, by element -/

/-- Element `n` of `b` lies in none of the spans. -/
def OutsideSpans (l : List Span) (b : Buf) (n : Nat) : Prop :=
  ∀ p ∈ l, p.buf = b → n < p.base ∨ p.base + p.count ≤ n

theorem outsideSpans_cons {p : Span} {l : List Span} {b : Buf} {n : Nat} :
    OutsideSpans (p :: l) b n ↔ (p.buf = b → n < p.base ∨ p.base + p.count ≤ n) ∧ OutsideSpans l b n :=
  List.forall_mem_cons

/-- `writeAt` leaves every element at which it stores nothing. -/
theorem State.elem_writeAt_outside (s : State) {b b' : Buf} {n : Nat} {idx : Nat → Nat} {j : Nat}
    (h : b = b' → ∀ k < n, idx k ≠ j) (val : Nat → Word64) : (s.writeAt b n idx val).elem b' j = s.elem b' j := by
  by_cases hb : b = b'
  · subst hb
    exact s.elem_writeAt_miss b val (h rfl)
  · exact s.elem_writeAt_other (Ne.symm hb) _ _ _ _

theorem State.elem_writeFrom32_outside (s : State) {b b' : Buf} {base n j : Nat}
    (h : b = b' → j < base ∨ base + n ≤ j) (val : Nat → Word32) : (s.writeFrom32 b base n val).elem b' j = s.elem b' j :=
  s.elem_writeFrom_outside h _

/-- The subband elements a DWT stores at are below WWAVE * HWAVE, with the map loaded when M = 1 (42_dwt.md R173). -/
theorem storageIndex_lt {s : State} {m : Bool} (hm : m = true → MapLoaded s) {k : Nat} (hk : k < s.waves) :
    storageIndex s m k < s.waves := by
  cases m with
  | false => simpa [storageIndex] using hk
  | true =>
    have hlt := mapEntry_lt hk
    have hword := (mapEntry_lt_two_pow hk).trans (by norm_num : 2 ^ 32 < 2 ^ 64)
    simpa only [storageIndex, if_true, hm rfl k hk, BitVec.toNat_ofNat, Nat.mod_eq_of_lt hword] using hlt

/-- A command that stores through the block map finds the map of the geometry in it. -/
def MapReady (s : State) (i : Instr) : Prop := ∀ ch, i = .dwt ch true → MapLoaded s

theorem area_ensurePhi (s : State) : (ensurePhi s).area = s.area := by
  simp only [State.area, State.bw, State.bh, (sameOutside_ensurePhi s).blkReq]

/-- The rebuild on demand writes the tensor, or nothing (43_dct.md R194). -/
theorem ensurePhi_elem_outside {s : State} {b : Buf} {n : Nat}
    (h : OutsideSpans (if s.phiOk then [] else [⟨.phi, 0, s.area * s.area⟩]) b n) :
    (ensurePhi s).elem b n = s.elem b n := by
  rcases ensurePhi_cases s with ⟨-, he⟩ | ⟨hp, he⟩
  · rw [he]
  · rw [hp] at h
    rw [he, buildPhi_elem]
    exact s.elem_writeFrom_outside (h _ List.mem_cons_self) _

theorem effectDct_elem_outside (ch : Channel) (k : Nat) {s : State} {b : Buf} {n : Nat}
    (h : OutsideSpans (writeSet s (.dct ch k)) b n) : (effectDct ch k s).elem b n = s.elem b n := by
  obtain ⟨hcoef, hphi⟩ := outsideSpans_cons.mp h
  rw [← area_ensurePhi] at hcoef
  calc (effectDct ch k s).elem b n = _ := State.elem_withRegisters _ _ _ _ b n
    _ = (ensurePhi s).elem b n := State.elem_writeFrom_outside _ hcoef _
    _ = s.elem b n := ensurePhi_elem_outside hphi

theorem storeSvd_elem_outside (answer : Option SvdTriple) {s : State} {b : Buf} {n : Nat}
    (h : OutsideSpans (writeSet s .svd) b n) : (storeSvd answer s).elem b n = s.elem b n := by
  simp only [writeSet, outsideSpans_cons] at h
  obtain ⟨hs, hu, hv, -⟩ := h
  cases answer with
  | none => exact State.elem_withRegisters _ _ _ _ b n
  | some f =>
    refine (State.elem_withRegisters _ _ _ _ b n).trans ?_
    rw [State.elem_writeFrom_outside _ hv, State.elem_writeFrom_outside _ hu, State.elem_writeFrom_outside _ hs]

/-- An effect leaves every element outside its write set; DWT's stores go through the map when M = 1. -/
theorem effectOf_elem_outside {i : Instr} {s : State} (hmap : MapReady s i) {b : Buf} {n : Nat}
    (h : OutsideSpans (writeSet s i) b n) : (effectOf i s).elem b n = s.elem b n := by
  cases i with
  | rgb2yuv =>
    simp only [writeSet, outsideSpans_cons] at h
    obtain ⟨hy, hu, hv, ha, -⟩ := h
    simp only [effectOf, effectRgb2yuv, State.elem_writeFrom_outside _ ha, State.elem_writeFrom32_outside _ hv,
      State.elem_writeFrom32_outside _ hu, State.elem_writeFrom32_outside _ hy]
  | yuv2rgb => exact s.elem_writeFrom_outside (h _ List.mem_cons_self) _
  | mapgen => exact (State.elem_withRegisters _ _ _ _ b n).trans (s.elem_writeFrom_outside (h _ List.mem_cons_self) _)
  | dwt ch m =>
    simp only [writeSet, outsideSpans_cons] at h
    obtain ⟨ha, hh, hv, hd, -⟩ := h
    have hmiss (hn : n < 0 ∨ 0 + s.waves ≤ n) : ∀ k < s.waves, storageIndex s m k ≠ n := fun k hk => by
      have := storageIndex_lt (m := m) (fun hm => hmap ch (by rw [hm])) hk
      omega
    simp only [effectOf, effectDwt, State.elem_writeAt_outside _ (hmiss ∘ hd), State.elem_writeAt_outside _ (hmiss ∘ hv),
      State.elem_writeAt_outside _ (hmiss ∘ hh), State.elem_writeAt_outside _ (hmiss ∘ ha)]
  | idwt ch m => exact s.elem_writeFrom32_outside (h _ List.mem_cons_self) _
  | dctinit => exact (buildPhi_elem s b n).trans (s.elem_writeFrom_outside (h _ List.mem_cons_self) _)
  | dct ch k => exact effectDct_elem_outside ch k h
  | idct => exact s.elem_writeFrom32_outside (h _ List.mem_cons_self) _
  | svd => exact storeSvd_elem_outside _ h
  | isvd => exact s.elem_writeFrom_outside (h _ List.mem_cons_self) _

theorem elem_finishCommand (s : State) (b : Buf) (n : Nat) : (finishCommand s).elem b n = s.elem b n :=
  State.elem_congr rfl (finishCommand_buf s b) n

/-- The checks of the command in flight still hold (30_encoding.md R117, 20_memory.md R91). -/
theorem ControlSound.checks_hold {s : State} {i : Instr} (h : ControlSound s) (hb : s.status.busy = true)
    (hd : decode s.curCmd = .ok i) : firstFault (acceptChecks s i) = none := by
  obtain ⟨-, haccepted, -⟩ := h
  obtain ⟨j, -, hj, hchecks⟩ := haccepted hb
  obtain rfl : j = i := Except.ok.inj (hj.symm.trans hd)
  exact hchecks

/-- An accepted command that needs the map finds MAP_VALID = 1, and so the map. -/
theorem mapReady_of_checks {s : State} {i : Instr} (hmap : MapSound s) (hi : firstFault (acceptChecks s i) = none) :
    MapReady s i := by
  rintro ch rfl
  exact hmap (by simpa using firstFault_none_iff.mp hi (!true || s.status.mapValid, .noMap) (by simp [acceptChecks]))

theorem outsideSpans_of_capacity_le {s : State} {l : List Span} (hl : ∀ p ∈ l, p.base + p.count ≤ s.capacity p.buf)
    {b : Buf} {n : Nat} (hn : s.capacity b ≤ n) : OutsideSpans l b n := by
  rintro p hp rfl
  exact .inr ((hl p hp).trans hn)

/-- Settles O60: the checks of an accepted command give its write set room, they still hold at its completion, and its effect
stores nowhere else. -/
theorem acceptedWritesStayInCapacity : Obligations.AcceptedWritesStayInCapacity := by
  refine ⟨fun s i => writeSet_le_capacity, fun s t i hs hmap hb hd ht => ?_⟩
  have hchecks := hs.checks_hold hb hd
  obtain rfl := Host.Outcome.next.inj ((exec_of_busy i hb).symm.trans ht)
  have hframe {b : Buf} {n : Nat} (h : OutsideSpans (writeSet s i) b n) :
      (finishCommand (effectOf i s)).elem b n = s.elem b n :=
    (elem_finishCommand _ b n).trans (effectOf_elem_outside (mapReady_of_checks hmap hchecks) h)
  obtain ⟨-, -, hgeometry⟩ := hs
  exact ⟨fun b n hn => hframe (outsideSpans_of_capacity_le (writeSet_le_capacity hgeometry hchecks) hn),
    fun b n h => hframe h⟩

end Sys2Proof.Machine
end

section
/-! SUPPORT. The command words (30_encoding.md R110 to R118): a word as its OPC and its operand field, decoding and encoding on
these two numbers, what presenting a word does, and the outcome of acceptance (statements O1 to O10). -/

namespace Sys2Proof.Machine

/-! ### The fields of a word -/

/-- Bits 31:6 of a command's word as a number: CH in its low two bits, then M or K (30_encoding.md R111). -/
def operandField : Instr → Nat
  | .dwt ch m | .idwt ch m => channelNumber ch + 4 * m.toNat
  | .dct ch k => channelNumber ch + 4 * k
  | .rgb2yuv | .yuv2rgb | .mapgen | .dctinit | .idct | .svd | .isvd => 0

theorem opcode_lt (i : Instr) : opcode i < 64 := by cases i <;> simp [opcode]

theorem channelNumber_lt (ch : Channel) : channelNumber ch < 3 := by cases ch <;> decide

theorem exists_channelNumber {n : Nat} (h : n < 3) : ∃ ch, channelNumber ch = n := by
  interval_cases n
  exacts [⟨.y, rfl⟩, ⟨.u, rfl⟩, ⟨.v, rfl⟩]

theorem exists_boolToNat {n : Nat} (h : n < 2) : ∃ m : Bool, m.toNat = n := by
  interval_cases n
  exacts [⟨false, rfl⟩, ⟨true, rfl⟩]

theorem boolToNat_inj {a b : Bool} : a.toNat = b.toNat ↔ a = b :=
  (Function.LeftInverse.injective Bool.ofNat_toNat).eq_iff

theorem channelOfBits_eq_some_iff {b : BitVec 2} {ch : Channel} : channelOfBits b = some ch ↔ channelNumber ch = b.toNat := by
  refine ⟨channelNumber_of_channelOfBits, fun h => ?_⟩
  unfold channelOfBits
  rw [← h]
  cases ch <;> rfl

theorem extractLsb'_toNat_eq_mod (w : Word32) (start len : Nat) :
    (w.extractLsb' start len).toNat = w.toNat / 2 ^ start % 2 ^ len := by
  rw [BitVec.extractLsb'_toNat, Nat.shiftRight_eq_div_pow]

theorem extractLsb'_eq_zero_iff (w : Word32) (start len : Nat) :
    w.extractLsb' start len = 0 ↔ w.toNat / 2 ^ start % 2 ^ len = 0 := by
  rw [← BitVec.toNat_inj, extractLsb'_toNat_eq_mod]
  rfl

/-! ### The three formats, decoded -/

theorem decodeN_eq_ok_iff {w : Word32} {i j : Instr} : decodeN w i = .ok j ↔ w.toNat / 64 = 0 ∧ i = j := by
  have hzero : w.extractLsb' 6 26 = 0 ↔ w.toNat / 64 = 0 := by
    rw [extractLsb'_eq_zero_iff]
    omega
  simp only [decodeN, hzero]
  split_ifs with h <;> simp [h]

theorem decodeB_eq_ok_iff {w : Word32} {f : Channel → Nat → Instr} {j : Instr} :
    decodeB w f = .ok j ↔ ∃ ch k, w.toNat / 64 = channelNumber ch + 4 * k ∧ f ch k = j := by
  have hfield (ch : Channel) (k : Nat) : w.toNat / 64 = channelNumber ch + 4 * k ↔
      channelOfBits (w.extractLsb' 6 2) = some ch ∧ (w.extractLsb' 8 24).toNat = k := by
    rw [channelOfBits_eq_some_iff, extractLsb'_toNat_eq_mod, extractLsb'_toNat_eq_mod]
    have := channelNumber_lt ch
    omega
  simp only [hfield, decodeB]
  cases channelOfBits (w.extractLsb' 6 2) <;> simp

theorem decodeC_eq_ok_iff {w : Word32} {f : Channel → Bool → Instr} {j : Instr} :
    decodeC w f = .ok j ↔ ∃ ch m, w.toNat / 64 = channelNumber ch + 4 * m.toNat ∧ f ch m = j := by
  have hbit : (w.getLsbD 8).toNat = w.toNat / 256 % 2 := Nat.toNat_testBit w.toNat 8
  have hzero : w.extractLsb' 9 23 = 0 ↔ w.toNat / 512 = 0 := by
    rw [extractLsb'_eq_zero_iff]
    omega
  have hfield (ch : Channel) (m : Bool) : w.toNat / 64 = channelNumber ch + 4 * m.toNat ↔
      w.toNat / 512 = 0 ∧ channelOfBits (w.extractLsb' 6 2) = some ch ∧ w.getLsbD 8 = m := by
    rw [channelOfBits_eq_some_iff, extractLsb'_toNat_eq_mod, ← boolToNat_inj, hbit]
    have := channelNumber_lt ch
    have := m.toNat_lt
    omega
  simp only [hfield, decodeC, hzero]
  split_ifs with h
  · cases channelOfBits (w.extractLsb' 6 2) <;> simp [h]
  · simp [h]

/-! ### Decoding and encoding on the two fields -/

/-- `Decode` on the two fields of a word: the OPC picks the row, and the row's format reads the operands. -/
theorem decode_eq_ok_iff {w : Word32} {i : Instr} :
    decode w = .ok i ↔ w.toNat % 64 = opcode i ∧ w.toNat / 64 = operandField i := by
  have hopc : (w.extractLsb' 0 6).toNat = w.toNat % 64 := by
    rw [extractLsb'_toNat_eq_mod, pow_zero, Nat.div_one]
    rfl
  rw [decode, hopc]
  constructor
  · intro h
    split at h
    -- The arms stand in the order of their opcodes: 4 and 5 are of format C, 7 of format B, the last arm is no row.
    case h_4 | h_5 => obtain ⟨ch, m, hfield, rfl⟩ := decodeC_eq_ok_iff.mp h; exact ⟨‹_›, hfield⟩
    case h_7 => obtain ⟨ch, k, hfield, rfl⟩ := decodeB_eq_ok_iff.mp h; exact ⟨‹_›, hfield⟩
    case h_11 => contradiction
    all_goals obtain ⟨hfield, rfl⟩ := decodeN_eq_ok_iff.mp h; exact ⟨‹_›, hfield⟩
  · rintro ⟨hrow, hfield⟩
    rw [hrow]
    cases i with
    | dwt ch m | idwt ch m => exact decodeC_eq_ok_iff.mpr ⟨ch, m, hfield, rfl⟩
    | dct ch k => exact decodeB_eq_ok_iff.mpr ⟨ch, k, hfield, rfl⟩
    | rgb2yuv | yuv2rgb | mapgen | dctinit | idct | svd | isvd => exact decodeN_eq_ok_iff.mpr ⟨hfield, rfl⟩

theorem encode_eq_ofNat (i : Instr) : encode i = BitVec.ofNat 32 (opcode i + 64 * operandField i) := by
  cases i with
  | dwt ch m | idwt ch m | dct ch k => exact congrArg (BitVec.ofNat 32) (by simp only [operandField]; omega)
  | rgb2yuv | yuv2rgb | mapgen | dctinit | idct | svd | isvd => rfl

/-- The range of K is exactly what makes the operand field fit in 26 bits (30_encoding.md R112). -/
theorem wf_iff_operandField_lt (i : Instr) : i.wf = true ↔ operandField i < 2 ^ 26 := by
  cases i with
  | dwt ch m | idwt ch m =>
    have := channelNumber_lt ch
    have := m.toNat_lt
    simp only [Instr.wf, operandField, true_iff]
    omega
  | dct ch k =>
    have := channelNumber_lt ch
    simp only [Instr.wf, operandField, decide_eq_true_eq]
    omega
  | rgb2yuv | yuv2rgb | mapgen | dctinit | idct | svd | isvd => decide

theorem encode_eq_iff {w : Word32} {i : Instr} :
    i.wf = true ∧ encode i = w ↔ w.toNat % 64 = opcode i ∧ w.toNat / 64 = operandField i := by
  rw [wf_iff_operandField_lt, encode_eq_ofNat, ← BitVec.toNat_inj, BitVec.toNat_ofNat]
  have := opcode_lt i
  omega

/-- Settles O1: both sides say the word's OPC and operand field are the command's. -/
theorem decodeReadsEncodedCommand : Obligations.DecodeReadsEncodedCommand :=
  fun _ hwf => decode_eq_ok_iff.mpr (encode_eq_iff.mp ⟨hwf, rfl⟩)

/-- Settles O2, by the same two fields. -/
theorem encodeWritesDecodedWord : Obligations.EncodeWritesDecodedWord :=
  fun _ _ h => encode_eq_iff.mpr (decode_eq_ok_iff.mp h)

/-! ### Presenting a word, and the engine's turn -/

section Present

variable {s : State} {w : Word32}

theorem acceptIllegal_eq_refusedWith (w : Word32) (s : State) : acceptIllegal w s = refusedWith .illegalCmd w s := rfl

theorem presentCommand_of_fault (hbusy : s.status.busy = false) (hfault : s.status.fault = true) :
    presentCommand w s = .next (accessRefused .faultPending s) := by
  simp [presentCommand, hbusy, hfault, flagAccErr_eq_accessRefused]

theorem presentCommand_of_legal {i : Instr} (hbusy : s.status.busy = false) (hfault : s.status.fault = false)
    (hw : decode w = .ok i) : presentCommand w s = exec i s := by
  simp [presentCommand, hbusy, hfault, hw]

theorem presentCommand_of_illegal {e : DecodeError} (hbusy : s.status.busy = false) (hfault : s.status.fault = false)
    (hw : decode w = .error e) : presentCommand w s = .next (refusedWith .illegalCmd w s) := by
  simp [presentCommand, hbusy, hfault, hw, acceptIllegal_eq_refusedWith]

theorem step_present {rest : List Event} {v : Word64} (h : s.events = .write 0x28 64 v :: rest) :
    step s = presentCommand (v.extractLsb' 0 32) { s with events := rest } :=
  step_write h

theorem engineStep_of_busy {i : Instr} (hbusy : s.status.busy = true) (hw : decode s.curCmd = .ok i) :
    engineStep s = exec i s := by
  simp [engineStep, hbusy, hw]

theorem engineStep_of_idle (hbusy : s.status.busy = false) : engineStep s = .next s := by
  simp [engineStep, hbusy]

theorem step_complete {rest : List Event} (h : s.events = .complete :: rest) :
    step s = engineStep { s with events := rest } :=
  step_of_cons h

end Present

/-! ### The illegal words -/

/-- 30_encoding.md R114 on the two fields of a word. -/
def IllegalFields (opc field : Nat) : Prop :=
  opc = 0 ∨ 0x0B ≤ opc ∨ (opc ∈ [1, 2, 3, 6, 8, 9, 10] ∧ field ≠ 0) ∨ (opc ∈ [4, 5] ∧ field / 8 ≠ 0) ∨
    (opc ∈ [4, 5, 7] ∧ field % 4 = 3)

theorem not_illegalFields_command (i : Instr) : ¬IllegalFields (opcode i) (operandField i) := by
  cases i with
  | dwt ch m | idwt ch m =>
    have := channelNumber_lt ch
    have := m.toNat_lt
    simp only [IllegalFields, opcode, operandField, List.mem_cons, List.not_mem_nil, or_false]
    omega
  | dct ch k =>
    have := channelNumber_lt ch
    simp only [IllegalFields, opcode, operandField, List.mem_cons, List.not_mem_nil, or_false]
    omega
  | rgb2yuv | yuv2rgb | mapgen | dctinit | idct | svd | isvd => simp [IllegalFields, opcode, operandField]

/-- The fields no clause of R114 refuses are some command's. -/
theorem exists_command_of_legal {opc field : Nat} (h : ¬IllegalFields opc field) :
    ∃ i, opc = opcode i ∧ field = operandField i := by
  simp only [IllegalFields, List.mem_cons, List.not_mem_nil, or_false] at h
  by_cases hplain : opc = 4 ∨ opc = 5 ∨ opc = 7
  · obtain ⟨ch, hch⟩ := exists_channelNumber (n := field % 4) (by omega)
    by_cases hblock : opc = 7
    · exact ⟨.dct ch (field / 4), hblock, by simp only [operandField]; omega⟩
    · obtain ⟨m, hm⟩ := exists_boolToNat (n := field / 4) (by omega)
      have hfield : field = channelNumber ch + 4 * m.toNat := by omega
      rcases (by omega : opc = 4 ∨ opc = 5) with rfl | rfl
      exacts [⟨.dwt ch m, rfl, hfield⟩, ⟨.idwt ch m, rfl, hfield⟩]
  · obtain rfl : field = 0 := by omega
    rcases (by omega : opc = 1 ∨ opc = 2 ∨ opc = 3 ∨ opc = 6 ∨ opc = 8 ∨ opc = 9 ∨ opc = 10) with
      rfl | rfl | rfl | rfl | rfl | rfl | rfl
    exacts [⟨.rgb2yuv, rfl, rfl⟩, ⟨.yuv2rgb, rfl, rfl⟩, ⟨.mapgen, rfl, rfl⟩, ⟨.dctinit, rfl, rfl⟩, ⟨.idct, rfl, rfl⟩,
      ⟨.svd, rfl, rfl⟩, ⟨.isvd, rfl, rfl⟩]

theorem decode_eq_error_iff {w : Word32} : (∃ e, decode w = .error e) ↔ IllegalFields (w.toNat % 64) (w.toNat / 64) := by
  cases hd : decode w with
  | ok i =>
    obtain ⟨hopc, hfield⟩ := decode_eq_ok_iff.mp hd
    simpa [hopc, hfield] using not_illegalFields_command i
  | error e =>
    refine iff_of_true ⟨e, rfl⟩ (by_contra fun hlegal => ?_)
    obtain ⟨i, hi⟩ := exists_command_of_legal hlegal
    exact absurd (hd.symm.trans (decode_eq_ok_iff.mpr hi)) nofun

/-- Settles O3: a word is illegal by its two fields, and presenting it is the illegal branch of `PresentCommand`. -/
theorem illegalWordsRaiseIllegalCmd : Obligations.IllegalWordsRaiseIllegalCmd := by
  intro w opc illegal
  have hiff : (∃ e, decode w = .error e) ↔ illegal := by
    rw [decode_eq_error_iff, IllegalFields, Nat.div_div_eq_div_mul]
  refine ⟨hiff, ⟨_, rfl⟩, ?_⟩
  rintro hw s rest v rfl hevents hbusy hfault
  obtain ⟨e, he⟩ := hiff.mpr hw
  exact (step_present hevents).trans (presentCommand_of_illegal hbusy hfault he)

/-- Settles O4, by evaluating the decoder on each word. -/
theorem sampleWordsDecode : Obligations.SampleWordsDecode := by
  unfold Obligations.SampleWordsDecode
  decide

/-- Settles O5: with no event pending, or with a completion next, the step is the engine's turn. -/
theorem stepRunsCommandInFlight : Obligations.StepRunsCommandInFlight := by
  refine ⟨fun s i hbusy hw => ⟨fun h => ?_, fun rest h => ?_⟩, fun s hidle => ⟨fun h => ?_, fun rest h => ?_⟩⟩
  · exact (step_of_nil h).trans (engineStep_of_busy hbusy hw)
  · exact (step_complete h).trans (engineStep_of_busy hbusy hw)
  · exact (step_of_nil h).trans (engineStep_of_idle hidle)
  · exact (step_complete h).trans (engineStep_of_idle hidle)

/-- Settles O6, by the branches of `PresentCommand`. -/
theorem presentedWordIsDiscardedOrAccepted : Obligations.PresentedWordIsDiscardedOrAccepted := by
  intro s rest v h t
  rw [step_present h]
  exact ⟨fun hbusy => presentCommand_of_busy _ hbusy, fun hbusy hfault => presentCommand_of_fault hbusy hfault,
    fun hbusy hfault => ⟨fun i hw => presentCommand_of_legal hbusy hfault hw,
      fun e hw => presentCommand_of_illegal hbusy hfault hw⟩⟩

/-! ### The outcome of acceptance -/

/-- What the checks, in order, make of a presented word: the first that fails raises its fault, else the word is latched
(30_encoding.md R117, 60_exceptions.md R253). -/
def checkedOutcome (w : Word32) (s : State) : List (Bool × CmdFault) → State
  | [] => latched w s
  | (ok, f) :: checks => if ok = true then checkedOutcome w s checks else refusedWith f w s

theorem checkedOutcome_eq (w : Word32) (s : State) (checks : List (Bool × CmdFault)) :
    checkedOutcome w s checks = (firstFault checks).elim (latched w s) (refusedWith · w s) := by
  induction checks with
  | nil => rfl
  | cons c checks ih =>
    obtain ⟨ok, f⟩ := c
    cases ok
    · rfl
    · exact ih

/-- Every command presented to the idle engine answers what its checks make of its word. -/
theorem exec_idle_eq_checkedOutcome (i : Instr) {s : State} (h : s.status.busy = false) :
    exec i s = .next (checkedOutcome (encode i) s (acceptChecks s i)) := by
  rw [exec_of_idle i h, checkedOutcome_eq]
  rcases acceptCommand_cases i s with ⟨hchecks, haccept⟩ | ⟨f, hchecks, haccept⟩ <;> rw [hchecks, haccept] <;> rfl

/-- A word given as a sum of its fields is the command's. -/
theorem ofNat_eq_encode {i : Instr} {n : Nat} (h : n = opcode i + 64 * operandField i) : BitVec.ofNat 32 n = encode i := by
  rw [h, encode_eq_ofNat]

/-- Settles O7: the one check of the three commands is IMG_OK. -/
theorem imageCommandsNeedLegalImage : Obligations.ImageCommandsNeedLegalImage := by
  intro s hidle
  have houtcome (w : Word32) : checkedOutcome w s [(s.imgOk, .badImg)] =
      if 1 ≤ s.width ∧ 1 ≤ s.height ∧ s.width * s.height ≤ s.maxPix then latched w s else refusedWith .badImg w s :=
    if_congr s.imgOk_iff rfl rfl
  simp only [List.forall_mem_cons, ← houtcome]
  exact ⟨exec_idle_eq_checkedOutcome _ hidle, exec_idle_eq_checkedOutcome _ hidle, exec_idle_eq_checkedOutcome _ hidle, nofun⟩

/-- Settles O8: the checks of both commands are IMG_OK, then MAP_VALID where M = 1. -/
theorem waveletCommandsNeedImageThenMap : Obligations.WaveletCommandsNeedImageThenMap := by
  intro s ch m hidle
  have hmap : (!m || s.status.mapValid) = true ↔ ¬(m = true ∧ s.status.mapValid = false) := by cases m <;> simp
  have houtcome (w : Word32) : checkedOutcome w s [(s.imgOk, .badImg), (!m || s.status.mapValid, .noMap)] =
      if ¬(1 ≤ s.width ∧ 1 ≤ s.height ∧ s.width * s.height ≤ s.maxPix) then refusedWith .badImg w s
      else if m = true ∧ s.status.mapValid = false then refusedWith .noMap w s
      else latched w s := by
    simp only [checkedOutcome, s.imgOk_iff, hmap, ite_not, State.pixels]
  have hdwt : BitVec.ofNat 32 (4 + 64 * channelNumber ch + 256 * m.toNat) = encode (.dwt ch m) :=
    ofNat_eq_encode (by simp only [opcode, operandField]; omega)
  have hidwt : BitVec.ofNat 32 (5 + 64 * channelNumber ch + 256 * m.toNat) = encode (.idwt ch m) :=
    ofNat_eq_encode (by simp only [opcode, operandField]; omega)
  simp only [List.forall_mem_cons, ← houtcome, hdwt, hidwt]
  exact ⟨exec_idle_eq_checkedOutcome _ hidle, exec_idle_eq_checkedOutcome _ hidle, nofun⟩

/-- Settles O9: the checks are IMG_OK, SHAPE_OK and the block number's. -/
theorem dctNeedsImageThenShapeThenBlock : Obligations.DctNeedsImageThenShapeThenBlock := by
  intro s ch k _ hidle w
  have hw : w = encode (.dct ch k) := ofNat_eq_encode (by simp only [opcode, operandField]; omega)
  rw [exec_idle_eq_checkedOutcome _ hidle, hw]
  simp only [acceptChecks, checkedOutcome, s.imgOk_iff, s.shapeOk_iff, decide_eq_true_eq, ← not_le, ite_not, State.pixels]

/-- Settles O10: each of the four commands has one check. -/
theorem shapeAndValidFlagCommandsChecked : Obligations.ShapeAndValidFlagCommandsChecked := by
  intro s hidle
  have houtcome (w : Word32) : checkedOutcome w s [(s.shapeOk, .badShape)] =
      if s.bw ≤ s.bMax ∧ s.bh ≤ s.bMax then latched w s else refusedWith .badShape w s :=
    if_congr s.shapeOk_iff rfl rfl
  simp only [List.forall_mem_cons, ← houtcome]
  exact ⟨⟨exec_idle_eq_checkedOutcome _ hidle, exec_idle_eq_checkedOutcome _ hidle, nofun⟩,
    exec_idle_eq_checkedOutcome _ hidle, exec_idle_eq_checkedOutcome _ hidle⟩

end Sys2Proof.Machine
end

section
/-! SUPPORT. Binary32 results as rationals (00_scope.md R10, R13): the exact value of a finite datum, the error of the one
rounding below 2^16, and what each operation makes of the values of its operands. -/

namespace Sys2Proof.Machine

/-! ### The exact value of a datum -/

/-- The factor a sign bit stands for. -/
def signFactor (neg : Bool) : ℚ := if neg then -1 else 1

/-- The datum is finite and `x` is its exact value, its units being 2^-149 (00_scope.md R13). -/
def Fp.HasValue (a : Fp) (x : ℚ) : Prop := ∃ neg m, a = .fin neg m ∧ x = signFactor neg * (m / 2 ^ 149)

/-- The pattern is finite and its value within `e` of `x`. -/
def Near32 (v : Word32) (x e : ℚ) : Prop := ∃ z, (fp32 v).HasValue z ∧ |z - x| ≤ e

theorem fp32_zero : fp32 0 = .fin false 0 := by decide +kernel

theorem signFactor_not (s : Bool) : signFactor (!s) = -signFactor s := by cases s <;> simp [signFactor]

theorem signFactor_bne (s t : Bool) : signFactor (s != t) = signFactor s * signFactor t := by
  cases s <;> cases t <;> simp [signFactor]

theorem abs_signFactor_mul (s : Bool) {q : ℚ} (hq : 0 ≤ q) : |signFactor s * q| = q := by
  cases s <;> simp [signFactor, abs_of_nonneg hq]

theorem Fp.HasValue.neg {a : Fp} {x : ℚ} (h : a.HasValue x) : (negFp a).HasValue (-x) := by
  obtain ⟨s, m, rfl, rfl⟩ := h
  exact ⟨!s, m, rfl, by rw [signFactor_not, neg_mul]⟩

theorem Near32.finite {v : Word32} {x e : ℚ} (h : Near32 v x e) : ∃ neg m, fp32 v = .fin neg m := by
  obtain ⟨-, ⟨neg, m, hv, -⟩, -⟩ := h
  exact ⟨neg, m, hv⟩

theorem Fp.HasValue.near {v : Word32} {x : ℚ} (h : (fp32 v).HasValue x) : Near32 v x 0 := ⟨x, h, by simp⟩

theorem Near32.mono {v : Word32} {x e e' : ℚ} (h : Near32 v x e) (he : e ≤ e') : Near32 v x e' := by
  obtain ⟨z, hz, hle⟩ := h
  exact ⟨z, hz, hle.trans he⟩

theorem Near32.recenter {v : Word32} {x y e e' e'' : ℚ} (h : Near32 v x e) (hxy : |x - y| ≤ e') (he : e + e' ≤ e'') :
    Near32 v y e'' := by
  obtain ⟨z, hz, hle⟩ := h
  exact ⟨z, hz, (abs_sub_le z x y).trans ((add_le_add hle hxy).trans he)⟩

/-! ### The error of one rounding -/

/-- Below 2^16, which is 2^165 units, the last place is at most 2^141 units and rounding errs by at most half of it. -/
theorem roundUnits_error {num den : Nat} (hd : 0 < den) (h : num < 2 ^ 165 * den) :
    roundUnits binary32 num den < infBits binary32 ∧
      |(magnitudeUnits binary32 (roundUnits binary32 num den) : ℚ) - num / den| ≤ 2 ^ 140 := by
  have hfinite : roundUnits binary32 num den < infBits binary32 := by
    refine lt_of_le_of_ne (roundUnits_le _ _ _) fun hinf => ?_
    have hle := (roundUnits_eq_infBits_iff (by simp) (by simp) num hd).mp hinf
    simp only [binary32_fracBits, binary32_expBits] at hle
    omega
  have huncut : roundUnits binary32 num den = roundPattern binary32 num den := by
    rw [roundUnits_eq_min] at hfinite ⊢
    omega
  refine ⟨hfinite, ?_⟩
  rw [huncut]
  have hplace : 2 ^ lastPlace binary32 num den ≤ 2 ^ 141 := by
    have hlog : (num / den).log2 < 165 := by
      rw [Nat.log2_eq_log_two]
      exact Nat.log_lt_of_lt_pow' (by norm_num) ((Nat.div_lt_iff_lt_mul hd).mpr h)
    refine Nat.pow_le_pow_right two_pos ?_
    simp only [lastPlace, binary32_fracBits]
    omega
  have hgap : magnitudeUnits binary32 (floorPattern binary32 num den + 1) * den ≤
      magnitudeUnits binary32 (floorPattern binary32 num den) * den + 2 ^ 141 * den := by
    rw [floorPattern_units, succ_floorPattern_units, ← Nat.add_mul, Nat.succ_mul]
    exact Nat.mul_le_mul_right den (Nat.add_le_add_left hplace _)
  have herror : magnitudeUnits binary32 (roundPattern binary32 num den) * den ≤ num + 2 ^ 140 * den ∧
      num ≤ magnitudeUnits binary32 (roundPattern binary32 num den) * den + 2 ^ 140 * den := by
    obtain ⟨hlow, hhigh, ⟨hr, hhalf, -⟩ | ⟨hr, hhalf, -⟩⟩ := roundPattern_cases (F := binary32) (by simp) num hd <;>
      rw [hr] <;> omega
  obtain ⟨hup, hdown⟩ := herror
  have hden : (0 : ℚ) < den := by exact_mod_cast hd
  rw [abs_sub_le_iff, sub_le_comm, le_div_iff₀ hden, sub_le_iff_le_add, div_le_iff₀ hden]
  have hupQ : (magnitudeUnits binary32 (roundPattern binary32 num den) * den : ℚ) ≤ num + 2 ^ 140 * den := by
    exact_mod_cast hup
  have hdownQ : (num : ℚ) ≤ magnitudeUnits binary32 (roundPattern binary32 num den) * den + 2 ^ 140 * den := by
    exact_mod_cast hdown
  constructor <;> linarith

/-- A rounded pattern below 2^16 reads back with its sign and a magnitude within 2^140 units of the exact one. -/
theorem fp32_packRound (neg : Bool) {num den : Nat} (hd : 0 < den) (h : num < 2 ^ 165 * den) :
    ∃ u : Nat, fp32 (BitVec.ofNat 32 (packRound binary32 neg num den)) = .fin neg u ∧ |(u : ℚ) - num / den| ≤ 2 ^ 140 := by
  obtain ⟨hfinite, herror⟩ := roundUnits_error hd h
  refine ⟨_, ?_, herror⟩
  rw [packRound, fp32_ofNat (packSign_lt _ _ hfinite.le), unpackFp_packSign _ _ hfinite]
  rfl

/-- Rounding a value below 2^16 errs by at most 2^-9. -/
theorem near32_packRound {neg : Bool} {num den : Nat} {x : ℚ} (hd : 0 < den)
    (hx : x = signFactor neg * (num / den / 2 ^ 149)) (hlt : |x| < 2 ^ 16) :
    Near32 (BitVec.ofNat 32 (packRound binary32 neg num den)) x (1 / 512) := by
  have hden : (0 : ℚ) < den := by exact_mod_cast hd
  have hnum : num < 2 ^ 165 * den := by
    rw [hx, abs_signFactor_mul neg (by positivity), div_lt_iff₀ (by positivity), div_lt_iff₀ hden, ← pow_add] at hlt
    exact_mod_cast hlt
  obtain ⟨u, hu, herror⟩ := fp32_packRound neg hd hnum
  refine ⟨_, ⟨neg, u, hu, rfl⟩, ?_⟩
  rw [hx, ← mul_sub, abs_mul, ← sub_div, abs_div]
  have hsign : |signFactor neg| = 1 := by simpa using abs_signFactor_mul neg zero_le_one
  rw [hsign, one_mul, abs_of_pos (by positivity : (0 : ℚ) < 2 ^ 149), div_le_iff₀ (by positivity)]
  linarith

/-! ### The operations on values -/

section Operations

variable {a b : Word32} {x y : ℚ}

theorem near32_mul32 (ha : (fp32 a).HasValue x) (hb : (fp32 b).HasValue y) (hlt : |x * y| < 2 ^ 16) :
    Near32 (mul32 a b) (x * y) (1 / 512) := by
  obtain ⟨s, m, hs, hx⟩ := ha
  obtain ⟨t, n, ht, hy⟩ := hb
  have hmul : mul32 a b = BitVec.ofNat 32 (packRound binary32 (s != t) (m * n) (2 ^ 149)) := by
    rw [mul32, hs, ht]
    rfl
  rw [hmul]
  refine near32_packRound (by positivity) ?_ hlt
  rw [hx, hy, signFactor_bne]
  push_cast
  ring

/-- A sum of data, by the signs: magnitudes added, cancelled, or the smaller taken from the greater. -/
theorem near32_addFp {f g : Fp} (op : FpOp) (p q : Word64) (hf : f.HasValue x) (hg : g.HasValue y) (hlt : |x + y| < 2 ^ 16) :
    Near32 (result32 op p q (addFp binary32 f g)) (x + y) (1 / 512) := by
  obtain ⟨s, m, rfl, hx⟩ := hf
  obtain ⟨t, n, rfl, hy⟩ := hg
  by_cases hst : s = t
  · subst hst
    simp only [addFp, if_true]
    exact near32_packRound one_pos (by rw [hx, hy]; push_cast; ring) hlt
  obtain rfl : t = !s := Bool.eq_not.mpr (Ne.symm hst)
  rcases lt_trichotomy n m with hnm | rfl | hmn
  · simp only [addFp, hst, hnm.ne', hnm, if_true, if_false]
    exact near32_packRound one_pos (by rw [hx, hy, signFactor_not]; push_cast [hnm.le]; ring) hlt
  · simp only [addFp, hst, if_true, if_false]
    refine ⟨0, ⟨false, 0, fp32_zero, by simp [signFactor]⟩, ?_⟩
    simp [hx, hy, signFactor_not]
  · simp only [addFp, hst, hmn.ne, hmn.not_gt, if_false]
    exact near32_packRound one_pos (by rw [hx, hy, signFactor_not]; push_cast [hmn.le]; ring) hlt

theorem near32_add32 (ha : (fp32 a).HasValue x) (hb : (fp32 b).HasValue y) (hlt : |x + y| < 2 ^ 16) :
    Near32 (add32 a b) (x + y) (1 / 512) :=
  near32_addFp _ _ _ ha hb hlt

theorem near32_sub32 (ha : (fp32 a).HasValue x) (hb : (fp32 b).HasValue y) (hlt : |x - y| < 2 ^ 16) :
    Near32 (sub32 a b) (x - y) (1 / 512) := by
  rw [sub_eq_add_neg] at hlt ⊢
  exact near32_addFp _ _ _ ha hb.neg hlt

end Operations

/-! ### The operations on approximate values -/

section Approximations

variable {a b v : Word32} {x y z d e k : ℚ}

/-- An operation's one rounding, of a value `z` that is itself within `e` of `x`. -/
theorem Near32.of_rounded (hround : |z| < 2 ^ 16 → Near32 v z (1 / 512)) (hz : |z - x| ≤ e) (hx : |x| ≤ 1000) (he : e ≤ 1) :
    Near32 v x (e + 1 / 512) := by
  have htri := abs_sub_abs_le_abs_sub z x
  obtain ⟨w, hw, herror⟩ := hround (by linarith)
  refine ⟨w, hw, ?_⟩
  calc |w - x| ≤ |w - z| + |z - x| := abs_sub_le w z x
    _ ≤ e + 1 / 512 := by linarith

theorem Near32.add (ha : Near32 a x d) (hb : Near32 b y e) (hxy : |x + y| ≤ 1000) (he : d + e ≤ 1) :
    Near32 (add32 a b) (x + y) (d + e + 1 / 512) := by
  obtain ⟨p, hp, hpx⟩ := ha
  obtain ⟨q, hq, hqy⟩ := hb
  refine .of_rounded (near32_add32 hp hq) ?_ hxy he
  rw [add_sub_add_comm]
  exact (abs_add_le _ _).trans (add_le_add hpx hqy)

theorem Near32.sub (ha : Near32 a x d) (hb : Near32 b y e) (hxy : |x - y| ≤ 1000) (he : d + e ≤ 1) :
    Near32 (sub32 a b) (x - y) (d + e + 1 / 512) := by
  obtain ⟨p, hp, hpx⟩ := ha
  obtain ⟨q, hq, hqy⟩ := hb
  refine .of_rounded (near32_sub32 hp hq) ?_ hxy he
  rw [sub_sub_sub_comm]
  exact (abs_sub _ _).trans (add_le_add hpx hqy)

/-- The product with a constant of value `k`, held exactly. -/
theorem Near32.scale (ha : (fp32 a).HasValue k) (hk : 0 ≤ k) (hb : Near32 b y e) (hky : |k * y| ≤ 1000) (he : k * e ≤ 1) :
    Near32 (mul32 a b) (k * y) (k * e + 1 / 512) := by
  obtain ⟨q, hq, hqy⟩ := hb
  refine .of_rounded (near32_mul32 ha hq) ?_ hky he
  rw [← mul_sub, abs_mul, abs_of_nonneg hk]
  exact mul_le_mul_of_nonneg_left hqy hk

end Approximations

/-- The conversion of an 8-bit integer. -/
theorem near32_f32OfU8 (n : BitVec 8) : Near32 (f32OfU8 n) n.toNat (1 / 512) := by
  have hlt : (n.toNat : ℚ) < 2 ^ 16 := by exact_mod_cast n.isLt.trans (by norm_num)
  refine near32_packRound one_pos ?_ (by rwa [abs_of_nonneg (Nat.cast_nonneg _)])
  rw [binary32_unitExp]
  push_cast [signFactor]
  norm_num

end Sys2Proof.Machine
end

section
/-! SUPPORT. `Clip16` (40_color.md R135): its value in range and at the ends (statement O34), and how far it is from 257 times
an 8-bit integer that the clipped value is near. -/

namespace Sys2Proof.Machine

/-! ### `Clip16` by the kinds of data -/

theorem fp32_c255 : fp32 c255 = .fin false (255 * 2 ^ 149) := by decide +kernel

theorem fp32_c257 : fp32 c257 = .fin false (257 * 2 ^ 149) := by decide +kernel

/-- The product with 257 of a value in [0, 255], in units: within 2^140 of the exact one. -/
theorem fp32_mul32_c257 {v : Word32} {m : Nat} (h : fp32 v = .fin false m) (hm : m ≤ 255 * 2 ^ 149) :
    ∃ u : Nat, fp32 (mul32 v c257) = .fin false u ∧ u ≤ 257 * m + 2 ^ 140 ∧ 257 * m ≤ u + 2 ^ 140 := by
  have hmul : mul32 v c257 = BitVec.ofNat 32 (packRound binary32 false (m * (257 * 2 ^ 149)) (2 ^ 149)) := by
    rw [mul32, h, fp32_c257]
    rfl
  obtain ⟨u, hu, herror⟩ := fp32_packRound false (num := m * (257 * 2 ^ 149)) (den := 2 ^ 149) (by positivity) (by omega)
  have hexact : ((m * (257 * 2 ^ 149) : Nat) : ℚ) / (2 ^ 149 : Nat) = 257 * m := by
    push_cast
    ring
  rw [hexact, abs_sub_le_iff, sub_le_iff_le_add', sub_le_iff_le_add'] at herror
  obtain ⟨hup, hdown⟩ := herror
  exact ⟨u, by rw [hmul, hu], by exact_mod_cast hup, by exact_mod_cast hdown⟩

theorem truncNat32_of_fin {v : Word32} {m : Nat} (h : fp32 v = .fin false m) : truncNat32 v = m / 2 ^ 149 := by
  rw [truncNat32, h]
  rfl

theorem truncNat32_mul32_c257_le {v : Word32} {m : Nat} (h : fp32 v = .fin false m) (hm : m ≤ 255 * 2 ^ 149) :
    truncNat32 (mul32 v c257) ≤ 65535 := by
  obtain ⟨u, hu, hup, -⟩ := fp32_mul32_c257 h hm
  rw [truncNat32_of_fin hu]
  omega

/-- `Clip16` of a datum that is no NaN, by the two comparisons. -/
theorem clip16_eq {v : Word32} {d : Fp} (h : fp32 v = d) (hd : d ≠ .nan) :
    clip16 v =
      if ltFp d (.fin false 0) then 0 else if ltFp (.fin false (255 * 2 ^ 149)) d then 65535
      else BitVec.ofNat 16 (truncNat32 (mul32 v c257)) := by
  rw [clip16, h, fp32_zero, fp32_c255, if_neg hd]

theorem clip16_of_inRange {v : Word32} {m : Nat} (h : fp32 v = .fin false m) (hm : m ≤ 255 * 2 ^ 149) :
    (clip16 v).toNat = truncNat32 (mul32 v c257) := by
  have hle := truncNat32_mul32_c257_le h hm
  rw [clip16_eq h nofun, if_neg (by simp [ltFp]), if_neg (by simpa [ltFp] using hm), BitVec.toNat_ofNat,
    Nat.mod_eq_of_lt (by omega)]

theorem clip16_of_above {v : Word32} {m : Nat} (h : fp32 v = .fin false m) (hm : 255 * 2 ^ 149 < m) : clip16 v = 65535 := by
  rw [clip16_eq h nofun, if_neg (by simp [ltFp]), if_pos (by simpa [ltFp] using hm)]

/-- The product of -0 is -0, which truncates to 0. -/
theorem truncNat32_mul32_negZero {v : Word32} (h : fp32 v = .fin true 0) : truncNat32 (mul32 v c257) = 0 := by
  have hmul : mul32 v c257 = BitVec.ofNat 32 (packRound binary32 true (0 * (257 * 2 ^ 149)) (2 ^ 149)) := by
    rw [mul32, h, fp32_c257]
    rfl
  rw [hmul]
  decide +kernel

/-- Below 0 the comparison answers 0; -0 is not below +0, but its product is -0. -/
theorem clip16_of_negative {v : Word32} {m : Nat} (h : fp32 v = .fin true m) : clip16 v = 0 := by
  rw [clip16_eq h nofun]
  rcases Nat.eq_zero_or_pos m with rfl | hpos
  · rw [if_neg (by simp [ltFp]), if_neg (by simp [ltFp]), truncNat32_mul32_negZero h]
    rfl
  · rw [if_pos (by simp [ltFp, hpos.ne'])]

theorem clip16_of_inf {v : Word32} {neg : Bool} (h : fp32 v = .inf neg) : clip16 v = if neg then 0 else 65535 := by
  rw [clip16_eq h nofun]
  cases neg <;> rfl

/-- Settles O34, by the ranges of the clipped value. -/
theorem clipSixteenStaysInRange : Obligations.ClipSixteenStaysInRange := by
  refine ⟨fun v m h hm => ⟨truncNat32_mul32_c257_le h hm, clip16_of_inRange h hm⟩, fun v m h hm => clip16_of_above h hm,
    fun v m h => clip16_of_negative h, clip16_of_inf (neg := false) (by decide +kernel),
    clip16_of_inf (neg := true) (by decide +kernel), ?_, clip16_of_negative (m := 0) (by decide +kernel)⟩
  have htrunc : truncNat32 (mul32 c255 c257) = 65535 := by decide +kernel
  exact BitVec.eq_of_toNat_eq ((clip16_of_inRange fp32_c255 le_rfl).trans htrunc)

/-! ### `Clip16` near an 8-bit integer -/

/-- A finite value within 1 of an 8-bit integer clips to within 512 of 257 times it. -/
theorem clip16_near {v : Word32} {c : BitVec 8} (h : Near32 v c.toNat 1) :
    distance (clip16 v).toNat (257 * c.toNat) ≤ 512 := by
  obtain ⟨-, ⟨neg, m, hv, rfl⟩, hx⟩ := h
  have hc := c.isLt
  generalize c.toNat = c at hx hc ⊢
  rw [abs_sub_le_iff] at hx
  obtain ⟨hup, hdown⟩ := hx
  cases neg with
  | true =>
    have hc1 : (c : ℚ) ≤ 1 := by
      have : (0 : ℚ) ≤ m / 2 ^ 149 := by positivity
      simp only [signFactor, if_true] at hdown
      linarith
    have hc1' : c ≤ 1 := by exact_mod_cast hc1
    rw [clip16_of_negative hv, distance]
    change (0 - _) + (_ - 0) ≤ _
    omega
  | false =>
    simp only [signFactor, Bool.false_eq_true, if_false, one_mul] at hup hdown
    rw [sub_le_iff_le_add, div_le_iff₀ (by positivity)] at hup
    rw [sub_le_iff_le_add, ← sub_le_iff_le_add', le_div_iff₀ (by positivity)] at hdown
    have hupN : m ≤ (1 + c) * 2 ^ 149 := by exact_mod_cast hup
    have hdownN : c * 2 ^ 149 ≤ m + 2 ^ 149 := by
      have : (c * 2 ^ 149 : ℚ) ≤ m + 2 ^ 149 := by linarith
      exact_mod_cast this
    rcases Nat.lt_or_ge (255 * 2 ^ 149) m with habove | hin
    · rw [clip16_of_above hv habove, distance]
      change (65535 - _) + (_ - 65535) ≤ _
      omega
    · obtain ⟨u, hu, hle, hge⟩ := fp32_mul32_c257 hv hin
      rw [clip16_of_inRange hv hin, truncNat32_of_fin hu, distance]
      omega

end Sys2Proof.Machine
end

section
/-! SUPPORT. The colour conversion's arithmetic (40_color.md R133 to R138): how far each sample and each component is from the
exact combination of the 8-bit components, rounding by rounding (statement O33, and the arithmetic of O32). -/

namespace Sys2Proof.Machine

/-! ### The constants -/

theorem k299_value : (fp32 k299).HasValue (10032775 / 2 ^ 25) :=
  ⟨false, 10032775 * 2 ^ 124, by decide +kernel, by norm_num [signFactor]⟩

theorem k587_value : (fp32 k587).HasValue (9848226 / 2 ^ 24) :=
  ⟨false, 9848226 * 2 ^ 125, by decide +kernel, by norm_num [signFactor]⟩

theorem k114_value : (fp32 k114).HasValue (15300821 / 2 ^ 27) :=
  ⟨false, 15300821 * 2 ^ 122, by decide +kernel, by norm_num [signFactor]⟩

theorem k492_value : (fp32 k492).HasValue (16508781 / 2 ^ 25) :=
  ⟨false, 16508781 * 2 ^ 124, by decide +kernel, by norm_num [signFactor]⟩

theorem k877_value : (fp32 k877).HasValue (14713618 / 2 ^ 24) :=
  ⟨false, 14713618 * 2 ^ 125, by decide +kernel, by norm_num [signFactor]⟩

theorem k1140_value : (fp32 k1140).HasValue (9563013 / 2 ^ 23) :=
  ⟨false, 9563013 * 2 ^ 126, by decide +kernel, by norm_num [signFactor]⟩

theorem k395_value : (fp32 k395).HasValue (13254001 / 2 ^ 25) :=
  ⟨false, 13254001 * 2 ^ 124, by decide +kernel, by norm_num [signFactor]⟩

theorem k581_value : (fp32 k581).HasValue (9747562 / 2 ^ 24) :=
  ⟨false, 9747562 * 2 ^ 125, by decide +kernel, by norm_num [signFactor]⟩

theorem k2032_value : (fp32 k2032).HasValue (8522826 / 2 ^ 22) :=
  ⟨false, 8522826 * 2 ^ 127, by decide +kernel, by norm_num [signFactor]⟩

theorem half32_value : (fp32 half32).HasValue (1 / 2) :=
  ⟨false, 2 ^ 148, by decide +kernel, by norm_num [signFactor]⟩

/-! ### The samples of a pixel -/

/-- The luma before any rounding but that of the three weights. -/
def exactLuma (r g b : ℚ) : ℚ := 10032775 / 2 ^ 25 * r + 9848226 / 2 ^ 24 * g + 15300821 / 2 ^ 27 * b

theorem toNat_mem_Icc (n : BitVec 8) : (n.toNat : ℚ) ∈ Set.Icc (0 : ℚ) 255 :=
  ⟨Nat.cast_nonneg _, by exact_mod_cast Nat.le_of_lt_succ n.isLt⟩

section Samples

variable {rf gf bf : Word32} {r g b : ℚ}

theorem exactLuma_mem_Icc (hr : r ∈ Set.Icc (0 : ℚ) 255) (hg : g ∈ Set.Icc (0 : ℚ) 255) (hb : b ∈ Set.Icc (0 : ℚ) 255) :
    exactLuma r g b ∈ Set.Icc (0 : ℚ) 256 := by
  obtain ⟨⟨hr0, hr1⟩, ⟨hg0, hg1⟩, hb0, hb1⟩ := And.intro hr (And.intro hg hb)
  unfold exactLuma
  constructor <;> linarith

theorem luma_near (hrf : Near32 rf r (1 / 512)) (hgf : Near32 gf g (1 / 512)) (hbf : Near32 bf b (1 / 512))
    (hr : r ∈ Set.Icc (0 : ℚ) 255) (hg : g ∈ Set.Icc (0 : ℚ) 255) (hb : b ∈ Set.Icc (0 : ℚ) 255) :
    Near32 (add32 (add32 (mul32 k299 rf) (mul32 k587 gf)) (mul32 k114 bf)) (exactLuma r g b) (1 / 50) := by
  obtain ⟨⟨hr0, hr1⟩, ⟨hg0, hg1⟩, hb0, hb1⟩ := And.intro hr (And.intro hg hb)
  have hred := Near32.scale k299_value (by norm_num) hrf (abs_le.mpr ⟨by linarith, by linarith⟩) (by norm_num)
  have hgreen := Near32.scale k587_value (by norm_num) hgf (abs_le.mpr ⟨by linarith, by linarith⟩) (by norm_num)
  have hblue := Near32.scale k114_value (by norm_num) hbf (abs_le.mpr ⟨by linarith, by linarith⟩) (by norm_num)
  have hsum := hred.add hgreen (abs_le.mpr ⟨by linarith, by linarith⟩) (by norm_num)
  exact (hsum.add hblue (abs_le.mpr ⟨by linarith, by linarith⟩) (by norm_num)).mono (by norm_num)

end Samples

section Differences

variable {xf yf kf cf : Word32} {x y k t : ℚ}

/-- A chroma sample is a colour's difference to luma, scaled, with 0.5 added. -/
theorem chroma_near (hx : Near32 xf x (1 / 512)) (hy : Near32 yf y (1 / 50)) (hk : (fp32 kf).HasValue k) (hk0 : 0 ≤ k)
    (hk1 : k ≤ 1) (hxy : |x - y| ≤ 256) :
    Near32 (add32 (mul32 kf (sub32 xf yf)) half32) (k * (x - y) + 1 / 2) (1 / 30) := by
  have hkxy : |k * (x - y)| ≤ 1 * 256 := by
    rw [abs_mul, abs_of_nonneg hk0]
    exact mul_le_mul hk1 hxy (abs_nonneg _) zero_le_one
  have hhalf : |k * (x - y) + 1 / 2| ≤ 1000 := by
    rw [abs_le] at hkxy ⊢
    constructor <;> linarith
  have hscaled := Near32.scale hk hk0 (hx.sub hy (by linarith) (by norm_num)) (by linarith) (by linarith)
  exact (hscaled.add half32_value.near hhalf (by linarith)).mono (by linarith)

/-- The inverse takes the 0.5 off again and scales. -/
theorem scaledChroma_near (hc : Near32 cf (t + 1 / 2) (1 / 30)) (hk : (fp32 kf).HasValue k) (hk0 : 0 ≤ k) (hk3 : k ≤ 3)
    (ht : |t| ≤ 256) : Near32 (mul32 kf (sub32 cf half32)) (k * t) (1 / 8) := by
  have hkt : |k * t| ≤ 3 * 256 := by
    rw [abs_mul, abs_of_nonneg hk0]
    exact mul_le_mul hk3 ht (abs_nonneg _) (by norm_num)
  have hdiff := hc.sub half32_value.near (by rw [add_sub_cancel_right]; linarith) (by norm_num)
  rw [add_sub_cancel_right] at hdiff
  exact (Near32.scale hk hk0 hdiff (by linarith) (by linarith)).mono (by linarith)

end Differences

/-- The samples of a pixel, about its exact luma. -/
theorem fwdColor_near (r g b : BitVec 8) :
    let y := exactLuma r.toNat g.toNat b.toNat
    Near32 (fwdColor r g b).y y (1 / 50) ∧
      Near32 (fwdColor r g b).u (16508781 / 2 ^ 25 * (b.toNat - y) + 1 / 2) (1 / 30) ∧
      Near32 (fwdColor r g b).v (14713618 / 2 ^ 24 * (r.toNat - y) + 1 / 2) (1 / 30) := by
  intro y
  have hy := luma_near (near32_f32OfU8 r) (near32_f32OfU8 g) (near32_f32OfU8 b) (toNat_mem_Icc r) (toNat_mem_Icc g)
    (toNat_mem_Icc b)
  obtain ⟨hy0, hy1⟩ := exactLuma_mem_Icc (toNat_mem_Icc r) (toNat_mem_Icc g) (toNat_mem_Icc b)
  have hdiff (n : BitVec 8) : |(n.toNat : ℚ) - y| ≤ 256 := by
    obtain ⟨hn0, hn1⟩ := toNat_mem_Icc n
    exact abs_le.mpr ⟨by linarith, by linarith⟩
  exact ⟨hy, chroma_near (near32_f32OfU8 b) hy k492_value (by norm_num) (by norm_num) (hdiff b),
    chroma_near (near32_f32OfU8 r) hy k877_value (by norm_num) (by norm_num) (hdiff r)⟩

/-- Settles O33: each sample is near a rational. -/
theorem forwardColourIsFinite : Obligations.ForwardColourIsFinite := by
  intro r g b
  obtain ⟨hy, hu, hv⟩ := fwdColor_near r g b
  simp only [List.forall_mem_cons]
  exact ⟨hy.finite, hu.finite, hv.finite, nofun⟩

/-! ### The round trip of a pixel -/

/-- The published coefficients of the two directions are inverse to each other within a half, over the 8-bit components. -/
theorem exactRoundTrip_near {r g b : ℚ} (hr : r ∈ Set.Icc (0 : ℚ) 255) (hg : g ∈ Set.Icc (0 : ℚ) 255)
    (hb : b ∈ Set.Icc (0 : ℚ) 255) :
    let y := exactLuma r g b
    let u := 16508781 / 2 ^ 25 * (b - y)
    let v := 14713618 / 2 ^ 24 * (r - y)
    |y + 9563013 / 2 ^ 23 * v - r| ≤ 1 / 2 ∧
      |y - 13254001 / 2 ^ 25 * u - 9747562 / 2 ^ 24 * v - g| ≤ 1 / 2 ∧ |y + 8522826 / 2 ^ 22 * u - b| ≤ 1 / 2 := by
  obtain ⟨⟨hr0, hr1⟩, ⟨hg0, hg1⟩, hb0, hb1⟩ := And.intro hr (And.intro hg hb)
  simp only [exactLuma, abs_le]
  refine ⟨⟨?_, ?_⟩, ⟨?_, ?_⟩, ?_, ?_⟩ <;> linarith

/-- Each component of the round trip is within 512 of 257 times the 8-bit component it began as: before clipping it is within
1 of it, of which the coefficients take at most a half and the roundings at most a half. -/
theorem invColor_fwdColor_near (r g b : BitVec 8) :
    distance (invColor (fwdColor r g b)).r.toNat (257 * r.toNat) ≤ 512 ∧
      distance (invColor (fwdColor r g b)).g.toNat (257 * g.toNat) ≤ 512 ∧
      distance (invColor (fwdColor r g b)).b.toNat (257 * b.toNat) ≤ 512 := by
  obtain ⟨hy, hu, hv⟩ := fwdColor_near r g b
  have hr := toNat_mem_Icc r
  have hg := toNat_mem_Icc g
  have hb := toNat_mem_Icc b
  obtain ⟨hredExact, hgreenExact, hblueExact⟩ := exactRoundTrip_near hr hg hb
  obtain ⟨hy0, hy1⟩ := exactLuma_mem_Icc hr hg hb
  generalize exactLuma r.toNat g.toNat b.toNat = y at *
  obtain ⟨⟨hr0, hr1⟩, hb0, hb1⟩ := And.intro hr hb
  have htu : |16508781 / 2 ^ 25 * ((b.toNat : ℚ) - y)| ≤ 256 := abs_le.mpr ⟨by linarith, by linarith⟩
  have htv : |14713618 / 2 ^ 24 * ((r.toNat : ℚ) - y)| ≤ 256 := abs_le.mpr ⟨by linarith, by linarith⟩
  have hred := hy.add (scaledChroma_near hv k1140_value (by norm_num) (by norm_num) htv)
    (abs_le.mpr ⟨by linarith, by linarith⟩) (by norm_num)
  have hblue := hy.add (scaledChroma_near hu k2032_value (by norm_num) (by norm_num) htu)
    (abs_le.mpr ⟨by linarith, by linarith⟩) (by norm_num)
  have hgreenU := hy.sub (scaledChroma_near hu k395_value (by norm_num) (by norm_num) htu)
    (abs_le.mpr ⟨by linarith, by linarith⟩) (by norm_num)
  have hgreen := hgreenU.sub (scaledChroma_near hv k581_value (by norm_num) (by norm_num) htv)
    (abs_le.mpr ⟨by linarith, by linarith⟩) (by norm_num)
  exact ⟨clip16_near (hred.recenter hredExact (by norm_num)), clip16_near (hgreen.recenter hgreenExact (by norm_num)),
    clip16_near (hblue.recenter hblueExact (by norm_num))⟩

end Sys2Proof.Machine
end

section
/-! SUPPORT. The completions of RGB2YUV and YUV2RGB (40_color.md R136, R137): the elements they write, their frames, and the
two one after the other (statements O13, O14, O31 and O32). -/

namespace Sys2Proof.Machine

/-! ### What the writes leave in the elements -/

theorem State.elem_writeFrom_zero (s : State) (b : Buf) {n i : Nat} (hi : i < n) (val : Nat → Word64) :
    (s.writeFrom b 0 n val).elem b i = packElem b (val i) := by
  rw [s.elem_writeFrom, if_pos ⟨i.zero_le, by omega⟩, Nat.sub_zero]

theorem State.elem32_writeFrom32_zero (s : State) {b : Buf} (hb : elemBits b = 32) {n i : Nat} (hi : i < n)
    (val : Nat → Word32) : (s.writeFrom32 b 0 n val).elem32 b i = val i := by
  rw [State.elem32, State.writeFrom32, s.elem_writeFrom_zero b hi, setWidth_packElem32 hb]

theorem State.elem32_writeFrom32_other (s : State) {b b' : Buf} (h : b' ≠ b) (base n : Nat) (val : Nat → Word32) (i : Nat) :
    (s.writeFrom32 b base n val).elem32 b' i = s.elem32 b' i :=
  congrArg (BitVec.setWidth 32) (s.elem_writeFrom32_other h base n val i)

theorem State.elem32_writeFrom_other (s : State) {b b' : Buf} (h : b' ≠ b) (base n : Nat) (val : Nat → Word64) (i : Nat) :
    (s.writeFrom b base n val).elem32 b' i = s.elem32 b' i :=
  congrArg (BitVec.setWidth 32) (s.elem_writeFrom_other h base n val i)

theorem elem32_finishCommand (s : State) (b : Buf) (i : Nat) : (finishCommand s).elem32 b i = s.elem32 b i :=
  congrArg (BitVec.setWidth 32) (elem_finishCommand s b i)

theorem packElem_alpha (a : BitVec 16) : packElem .alpha (a.setWidth 64) = a.setWidth 64 := by
  apply BitVec.eq_of_toNat_eq
  simp only [packElem, elemBits, BitVec.toNat_setWidth]
  omega

theorem packElem_pixout (v : Word64) : packElem .pixout v = v := by simp [packElem, elemBits]

/-- The fields of a PIXOUT element (10_state.md R55). -/
theorem pixOut_fields (r g b a : BitVec 16) :
    (pixOut r g b a).extractLsb' 0 16 = r ∧ (pixOut r g b a).extractLsb' 16 16 = g ∧
      (pixOut r g b a).extractLsb' 32 16 = b ∧ (pixOut r g b a).extractLsb' 48 16 = a := by
  have hr := r.isLt
  have hg := g.isLt
  have hb := b.isLt
  have ha := a.isLt
  have hsum : (pixOut r g b a).toNat = r.toNat + 65536 * (g.toNat + 65536 * (b.toNat + 65536 * a.toNat)) := by
    rw [pixOut, BitVec.toNat_ofNat, Nat.mod_eq_of_lt (by omega)]
    ring
  refine ⟨?_, ?_, ?_, ?_⟩ <;> apply BitVec.eq_of_toNat_eq <;>
    rw [BitVec.extractLsb'_toNat, Nat.shiftRight_eq_div_pow, hsum] <;> omega

theorem alpha_setWidth (s : State) (i : Nat) : ((s.elem .alpha i).setWidth 16).setWidth 64 = s.elem .alpha i := by
  have h : (s.elem .alpha i).toNat < 2 ^ 16 := elemValue_toNat_lt .alpha i _
  apply BitVec.eq_of_toNat_eq
  simp only [BitVec.toNat_setWidth]
  omega

/-! ### The two commands -/

/-- What RGB2YUV leaves for a pixel of the image. -/
theorem effectRgb2yuv_pixel (s : State) {i : Nat} (hi : i < s.pixels) :
    (effectRgb2yuv s).elem32 (.chan .y) i = (fwdPixel s i).y ∧ (effectRgb2yuv s).elem32 (.chan .u) i = (fwdPixel s i).u ∧
      (effectRgb2yuv s).elem32 (.chan .v) i = (fwdPixel s i).v ∧
      (effectRgb2yuv s).elem .alpha i = (pixA (s.elem .pixin i)).setWidth 64 := by
  unfold effectRgb2yuv
  refine ⟨?_, ?_, ?_, ?_⟩
  · rw [State.elem32_writeFrom_other _ (by decide), State.elem32_writeFrom32_other _ (by decide),
      State.elem32_writeFrom32_other _ (by decide), State.elem32_writeFrom32_zero _ rfl hi]
  · rw [State.elem32_writeFrom_other _ (by decide), State.elem32_writeFrom32_other _ (by decide),
      State.elem32_writeFrom32_zero _ rfl hi]
  · rw [State.elem32_writeFrom_other _ (by decide), State.elem32_writeFrom32_zero _ rfl hi]
  · rw [State.elem_writeFrom_zero _ _ hi, packElem_alpha]

/-- What YUV2RGB leaves for a pixel of the image. -/
theorem effectYuv2rgb_pixel (s : State) {i : Nat} (hi : i < s.pixels) : (effectYuv2rgb s).elem .pixout i = outPixel s i := by
  rw [effectYuv2rgb, State.elem_writeFrom_zero _ _ hi, packElem_pixout]

/-- A command that writes the first elements of some buffers completes and leaves every other element. -/
theorem elem_completed_outside {i : Instr} {s : State} (hi : ∀ ch, i ≠ .dwt ch true) {n : Nat} {bufs : List Buf}
    (hw : ∀ p ∈ writeSet s i, p.base + p.count ≤ n ∧ p.buf ∈ bufs) {b : Buf} {j : Nat} (h : n ≤ j ∨ b ∉ bufs) :
    (finishCommand (effectOf i s)).elem b j = s.elem b j := by
  refine (elem_finishCommand _ b j).trans (effectOf_elem_outside (fun ch hdwt => absurd hdwt (hi ch)) ?_)
  rintro p hp rfl
  obtain ⟨hle, hmem⟩ := hw p hp
  exact .inr (hle.trans (h.resolve_right (not_not.mpr hmem)))

theorem State.exists_chan_writeFrom32 (s : State) (ch : Channel) (base n : Nat) (val : Nat → Word32) :
    ∃ c, s.writeFrom32 (.chan ch) base n val = { s with chan := c } := ⟨_, rfl⟩

theorem State.exists_alpha_writeFrom (s : State) (base n : Nat) (val : Nat → Word64) :
    ∃ a, s.writeFrom .alpha base n val = { s with alpha := a } := ⟨_, rfl⟩

/-- RGB2YUV replaces the channels and ALPHA. -/
theorem effectRgb2yuv_frame (s : State) : ∃ c a, effectRgb2yuv s = { s with chan := c, alpha := a } := by
  obtain ⟨y, hy⟩ := s.exists_chan_writeFrom32 .y 0 s.pixels fun i => (fwdPixel s i).y
  obtain ⟨u, hu⟩ := State.exists_chan_writeFrom32 { s with chan := y } .u 0 s.pixels fun i => (fwdPixel s i).u
  obtain ⟨v, hv⟩ := State.exists_chan_writeFrom32 { s with chan := u } .v 0 s.pixels fun i => (fwdPixel s i).v
  obtain ⟨a, ha⟩ := State.exists_alpha_writeFrom { s with chan := v } 0 s.pixels fun i => (pixA (s.elem .pixin i)).setWidth 64
  refine ⟨v, a, ?_⟩
  simp only [effectRgb2yuv, hy, hu, hv, ha]

/-- YUV2RGB replaces PIXOUT. -/
theorem effectYuv2rgb_frame (s : State) : effectYuv2rgb s = { s with pixout := (effectYuv2rgb s).pixout } := rfl

/-- Settles O13, from the pixels the effect writes and its write set. -/
theorem rgb2yuvWritesChannelsAndAlpha : Obligations.Rgb2yuvWritesChannelsAndAlpha := by
  intro s hbusy
  refine ⟨_, exec_of_busy .rgb2yuv hbusy, fun i hi => ?_, fun b i h => ?_, ?_⟩
  · simp only [elem32_finishCommand, elem_finishCommand]
    exact effectRgb2yuv_pixel s hi
  · exact elem_completed_outside (i := .rgb2yuv) (n := s.pixels) (by simp) (by simp [writeSet]) h
  · obtain ⟨c, a, h⟩ : ∃ c a, effectOf .rgb2yuv s = { s with chan := c, alpha := a } := effectRgb2yuv_frame s
    rw [h]
    rfl

/-- Settles O14, from the pixels the effect writes, the fields of PIXOUT and the write set. -/
theorem yuv2rgbWritesPixels : Obligations.Yuv2rgbWritesPixels := by
  intro s hbusy
  refine ⟨_, exec_of_busy .yuv2rgb hbusy, fun i hi => ?_, fun b i h => ?_, ?_⟩
  · have hpixel : (finishCommand (effectOf .yuv2rgb s)).elem .pixout i = outPixel s i :=
      (elem_finishCommand _ _ _).trans (effectYuv2rgb_pixel s hi)
    obtain ⟨hr, hg, hb, ha⟩ := pixOut_fields (invPixel s i).r (invPixel s i).g (invPixel s i).b ((s.elem .alpha i).setWidth 16)
    rw [hpixel]
    exact ⟨hr, hg, hb, (congrArg _ ha).trans (alpha_setWidth s i)⟩
  · exact elem_completed_outside (i := .yuv2rgb) (n := s.pixels) (bufs := [.pixout]) (by simp) (by simp [writeSet])
      (h.imp_right (by simp))
  · exact congrArg finishCommand (effectYuv2rgb_frame s)

/-! ### The two commands one after the other -/

theorem elem_latched (w : Word32) (s : State) (b : Buf) (i : Nat) : (latched w s).elem b i = s.elem b i :=
  SameData.elem (show SameData s (latched w s) from rfl) b i

theorem elem32_latched (w : Word32) (s : State) (b : Buf) (i : Nat) : (latched w s).elem32 b i = s.elem32 b i :=
  congrArg (BitVec.setWidth 32) (elem_latched w s b i)

/-- The pixel the round trip leaves, in terms of the one it began with. -/
theorem colourRoundTrip_pixel {s t u : State} (hbusy : s.status.busy = true) (ht : exec .rgb2yuv s = .next t)
    (hu : exec .yuv2rgb (latched 0x2 t) = .next u) {i : Nat} (hi : i < s.width * s.height) :
    let c := invColor (fwdPixel s i)
    let p := u.elem .pixout i
    p.extractLsb' 0 16 = c.r ∧ p.extractLsb' 16 16 = c.g ∧ p.extractLsb' 32 16 = c.b ∧
      p.extractLsb' 48 16 = pixA (s.elem .pixin i) := by
  obtain ⟨t', ht', hsamples, -, hframe⟩ := rgb2yuvWritesChannelsAndAlpha s hbusy
  obtain rfl := Host.Outcome.next.inj (ht.symm.trans ht')
  obtain ⟨u', hu', hfields, -, -⟩ := yuv2rgbWritesPixels (latched 0x2 t) rfl
  obtain rfl := Host.Outcome.next.inj (hu.symm.trans hu')
  have hdim : (latched 0x2 t).imgDim = s.imgDim := (congrArg State.imgDim hframe :)
  have hsize : (latched 0x2 t).width * (latched 0x2 t).height = s.width * s.height := by
    simp only [State.width, State.height, hdim]
  obtain ⟨hy, hcu, hcv, ha⟩ := hsamples i hi
  obtain ⟨hr, hg, hb, halpha⟩ := hfields i (hsize ▸ hi)
  simp only [elem32_latched, elem_latched, hy, hcu, hcv, ha] at hr hg hb halpha
  exact ⟨hr, hg, hb, by simpa [pixA] using congrArg (BitVec.setWidth 16) halpha⟩

/-- Settles O31: the A field of the round trip's pixel. -/
theorem alphaSurvivesColourRoundTrip : Obligations.AlphaSurvivesColourRoundTrip := by
  intro s t u hbusy ht hu i hi
  obtain ⟨-, -, -, ha⟩ := colourRoundTrip_pixel hbusy ht hu hi
  exact ha

/-- Settles O32: the colour fields of the round trip's pixel, each by the error of its roundings. -/
theorem colourRoundTripWithinTolerance : Obligations.ColourRoundTripWithinTolerance := by
  intro s t u hbusy ht hu i hi c hc
  obtain ⟨hr, hg, hb, -⟩ := colourRoundTrip_pixel hbusy ht hu hi
  obtain ⟨hred, hgreen, hblue⟩ := invColor_fwdColor_near (pixR (s.elem .pixin i)) (pixG (s.elem .pixin i))
    (pixB (s.elem .pixin i))
  rw [← fwdPixel] at hred hgreen hblue
  obtain rfl | rfl | rfl : c = 0 ∨ c = 1 ∨ c = 2 := by omega
  · rwa [← hr] at hred
  · rwa [← hg] at hgreen
  · rwa [← hb] at hblue

end Sys2Proof.Machine
end

section
/-! SUPPORT. The geometry (41_geometry_blockmap.md R150 to R155): the canonical dimension, and the sizes that IMG_OK and SHAPE_OK
bound (statements O26 and O27). -/

namespace Sys2Proof.Machine

/-! ### The canonical dimension -/

/-- Canonicalisation in one expression: the request made even, at least 4, halved (R150). -/
theorem canon_eq (r : Nat) : canon r = max ((if r = 0 then 8 else r) + (if r = 0 then 8 else r) % 2) 4 / 2 := by
  unfold canon
  dsimp only
  split_ifs <;> omega

/-- Settles O27: the range is that of every 16-bit field. -/
theorem canonicalDimension : Obligations.CanonicalDimension := by
  refine ⟨fun r hr => ⟨canon_eq r, ?_⟩, by decide, by decide, by decide, by decide, by decide, by decide, by decide,
    by decide, by decide, by decide, by decide, by decide, by decide, by decide, fun _ => ⟨rfl, rfl⟩⟩
  simpa only [BitVec.toNat_ofNat, Nat.mod_eq_of_lt hr] using canon_bounds (BitVec.ofNat 16 r)

/-! ### The room of a legal geometry -/

theorem State.wWave_pos {s : State} (h : s.imgOk = true) : 1 ≤ s.wWave := by
  obtain ⟨hw, -, -⟩ := s.imgOk_iff.mp h
  unfold State.wWave
  omega

theorem State.hWave_pos {s : State} (h : s.imgOk = true) : 1 ≤ s.hWave := by
  obtain ⟨-, hh, -⟩ := s.imgOk_iff.mp h
  unfold State.hWave
  omega

/-- An extent halved and rounded up is no larger, so the subbands are no larger than the image, legal or not (R152). -/
theorem State.waves_le_pixels (s : State) : s.waves ≤ s.pixels :=
  Nat.mul_le_mul (by unfold State.wWave; omega) (by unfold State.hWave; omega)

/-- Settles O26, from the two checks as propositions and the room each gives. -/
theorem imageAndShapeChecksGiveRoom : Obligations.ImageAndShapeChecksGiveRoom := by
  intro s
  refine ⟨s.imgOk_iff, fun h => ?_, s.shapeOk_iff, (canon_bounds _).1, (canon_bounds _).1, fun h => ?_⟩
  · exact ⟨State.wWave_pos h, State.hWave_pos h, s.waves_le_pixels, State.pixels_le_maxPix h⟩
  · exact ⟨State.area_le h, State.rank_le h, (Nat.pow_two _).trans_le (State.tensor_le h)⟩

end Sys2Proof.Machine
end

section
/-! SUPPORT. The map function of 41_geometry_blockmap.md R156: its value in each branch, the branches' ranges (R159), and that no
two cells of a grid share a value. -/

namespace Sys2Proof.Machine

/-! ### The value in each branch -/

section Branches

variable {wd ht bw bh x y : Nat}

theorem mapIdx_of_bottom (hy : ht / bh * bh ≤ y) : mapIdx wd ht bw bh x y = y * wd + x := if_pos hy

theorem mapIdx_of_right (hy : y < ht / bh * bh) (hx : wd / bw * bw ≤ x) :
    mapIdx wd ht bw bh x y =
      wd / bw * bw * (ht / bh * bh) + y * (wd - wd / bw * bw) + (x - wd / bw * bw) :=
  (if_neg hy.not_ge).trans (if_pos hx)

theorem mapIdx_of_block (hy : y < ht / bh * bh) (hx : x < wd / bw * bw) :
    mapIdx wd ht bw bh x y = y / bh * (wd / bw * bw * bh) + x / bw * (bw * bh) + y % bh * bw + x % bw :=
  (if_neg hy.not_ge).trans (if_neg hx.not_ge)

/-! ### The branches' ranges -/

variable (hbw : 0 < bw) (hbh : 0 < bh) (hx : x < wd) (hy : y < ht)
include hbw hbh hx hy

/-- The three branches have disjoint ranges (R159). -/
theorem mapIdx_ranges :
    if ht / bh * bh ≤ y then
      ht / bh * bh * wd ≤ mapIdx wd ht bw bh x y ∧ mapIdx wd ht bw bh x y < ht * wd
    else if wd / bw * bw ≤ x then
      wd / bw * bw * (ht / bh * bh) ≤ mapIdx wd ht bw bh x y ∧ mapIdx wd ht bw bh x y < ht / bh * bh * wd
    else mapIdx wd ht bw bh x y < wd / bw * bw * (ht / bh * bh) := by
  split_ifs with hbottom hright
  · rw [mapIdx_of_bottom hbottom]
    exact ⟨(Nat.mul_le_mul_right wd hbottom).trans (Nat.le_add_right _ _), mul_add_lt_mul hy hx⟩
  · rw [mapIdx_of_right (not_le.mp hbottom) hright]
    exact ⟨(Nat.le_add_right _ _).trans (Nat.le_add_right _ _), mapIdx_margin_lt hright hx (not_le.mp hbottom)⟩
  · rw [mapIdx_of_block (not_le.mp hbottom) (not_le.mp hright)]
    exact mapIdx_block_lt hbw hbh (not_le.mp hright) (not_le.mp hbottom)

/-- The value tells whether the cell is in the bottom margin. -/
theorem bottom_iff_le_mapIdx : ht / bh * bh ≤ y ↔ ht / bh * bh * wd ≤ mapIdx wd ht bw bh x y := by
  have hranges := mapIdx_ranges hbw hbh hx hy
  have hblocks : wd / bw * bw * (ht / bh * bh) ≤ ht / bh * bh * wd := by
    rw [Nat.mul_comm]
    exact Nat.mul_le_mul_left _ (Nat.div_mul_le_self wd bw)
  split_ifs at hranges <;> omega

/-- Above the bottom margin, the value tells whether the cell is in the right margin. -/
theorem right_iff_le_mapIdx (hbottom : y < ht / bh * bh) :
    wd / bw * bw ≤ x ↔ wd / bw * bw * (ht / bh * bh) ≤ mapIdx wd ht bw bh x y := by
  have hranges := mapIdx_ranges hbw hbh hx hy
  rw [if_neg hbottom.not_ge] at hranges
  split_ifs at hranges <;> omega

end Branches

/-! ### No two cells share a value -/

/-- Place value: two numbers with a digit below `n` are equal only digit by digit. -/
theorem mul_add_inj {a b r q n : Nat} (hr : r < n) (hq : q < n) (h : a * n + r = b * n + q) : a = b ∧ r = q := by
  have hdigit : r = q := by
    simpa only [Nat.mul_add_mod', Nat.mod_eq_of_lt hr, Nat.mod_eq_of_lt hq] using congrArg (· % n) h
  subst hdigit
  exact ⟨Nat.eq_of_mul_eq_mul_right (Nat.zero_lt_of_lt hr) (Nat.add_right_cancel h), rfl⟩

/-- A cell's place within its block (R160). -/
theorem blockOffset_lt {bw bh : Nat} (hbw : 0 < bw) (hbh : 0 < bh) (x y : Nat) : y % bh * bw + x % bw < bw * bh :=
  (mul_add_lt_mul (Nat.mod_lt y hbh) (Nat.mod_lt x hbw)).trans_eq (Nat.mul_comm bh bw)

/-- A cell's place within its row of blocks. -/
theorem blockRowOffset_lt {wd bw bh x : Nat} (hbw : 0 < bw) (hbh : 0 < bh) (hx : x < wd / bw * bw) (y : Nat) :
    x / bw * (bw * bh) + (y % bh * bw + x % bw) < wd / bw * bw * bh :=
  (mul_add_lt_mul (Nat.div_lt_of_lt_mul (hx.trans_eq (Nat.mul_comm _ _))) (blockOffset_lt hbw hbh x y)).trans_eq
    (Nat.mul_assoc _ _ _).symm

/-- The whole blocks' formula is a number of four digits: block row, block column, row and column within the block. -/
theorem block_inj {wd bw bh x y x' y' : Nat} (hbw : 0 < bw) (hbh : 0 < bh) (hx : x < wd / bw * bw) (hx' : x' < wd / bw * bw)
    (h : y / bh * (wd / bw * bw * bh) + x / bw * (bw * bh) + y % bh * bw + x % bw =
      y' / bh * (wd / bw * bw * bh) + x' / bw * (bw * bh) + y' % bh * bw + x' % bw) : x = x' ∧ y = y' := by
  simp only [Nat.add_assoc] at h
  obtain ⟨hbrow, h⟩ := mul_add_inj (blockRowOffset_lt hbw hbh hx y) (blockRowOffset_lt hbw hbh hx' y') h
  obtain ⟨hbcol, h⟩ := mul_add_inj (blockOffset_lt hbw hbh x y) (blockOffset_lt hbw hbh x' y') h
  obtain ⟨hrow, hcol⟩ := mul_add_inj (Nat.mod_lt x hbw) (Nat.mod_lt x' hbw) h
  exact ⟨Nat.ext_div_mod hbcol hcol, Nat.ext_div_mod hbrow hrow⟩

/-- No two cells of a grid share a value: the value names the branch, and each branch's formula is a number whose digits name
the cell (R159). -/
theorem mapIdx_inj {wd ht bw bh x y x' y' : Nat} (hbw : 0 < bw) (hbh : 0 < bh) (hx : x < wd) (hy : y < ht) (hx' : x' < wd)
    (hy' : y' < ht) (h : mapIdx wd ht bw bh x y = mapIdx wd ht bw bh x' y') : x = x' ∧ y = y' := by
  have hbottoms : ht / bh * bh ≤ y ↔ ht / bh * bh ≤ y' := by
    rw [bottom_iff_le_mapIdx hbw hbh hx hy, h, ← bottom_iff_le_mapIdx hbw hbh hx' hy']
  by_cases hbottom : ht / bh * bh ≤ y
  · rw [mapIdx_of_bottom hbottom, mapIdx_of_bottom (hbottoms.mp hbottom)] at h
    exact (mul_add_inj hx hx' h).symm
  · have hbottom' := mt hbottoms.mpr hbottom
    rw [not_le] at hbottom hbottom'
    have hrights : wd / bw * bw ≤ x ↔ wd / bw * bw ≤ x' := by
      rw [right_iff_le_mapIdx hbw hbh hx hy hbottom, h, ← right_iff_le_mapIdx hbw hbh hx' hy' hbottom']
    by_cases hright : wd / bw * bw ≤ x
    · have hright' := hrights.mp hright
      rw [mapIdx_of_right hbottom hright, mapIdx_of_right hbottom' hright', Nat.add_assoc, Nat.add_assoc] at h
      obtain ⟨hrow, hcol⟩ := mul_add_inj (by omega) (by omega) (Nat.add_left_cancel h)
      exact ⟨by omega, hrow⟩
    · have hright' := mt hrights.mpr hright
      rw [not_le] at hright hright'
      rw [mapIdx_of_block hbottom hright, mapIdx_of_block hbottom' hright'] at h
      exact block_inj hbw hbh hright hright' h

/-! ### The indices of a block -/

/-- A sample of a whole block: the block's number times the area, then row-major inside (R160). -/
theorem mapIdx_blockSample {wd ht bw bh brow bcol bx bY : Nat} (hbrow : brow < ht / bh) (hbcol : bcol < wd / bw)
    (hbx : bx < bw) (hbY : bY < bh) :
    mapIdx wd ht bw bh (bcol * bw + bx) (brow * bh + bY) =
      (brow * (wd / bw * bw / bw) + bcol) * (bw * bh) + bY * bw + bx := by
  have hdivMod {a n r : Nat} (hr : r < n) : (a * n + r) / n = a ∧ (a * n + r) % n = r :=
    mul_add_inj (Nat.mod_lt _ (Nat.zero_lt_of_lt hr)) hr (Nat.div_add_mod' _ _)
  obtain ⟨hcol, hx⟩ := hdivMod (a := bcol) hbx
  obtain ⟨hrow, hy⟩ := hdivMod (a := brow) hbY
  rw [mapIdx_of_block (mul_add_lt_mul hbrow hbY) (mul_add_lt_mul hbcol hbx), hcol, hx, hrow, hy,
    Nat.mul_div_cancel _ (Nat.zero_lt_of_lt hbx)]
  ring

theorem State.totBlk_mul_area (s : State) :
    s.totBlk * (s.bw * s.bh) = (s.wWave / s.bw * s.bw) * (s.hWave / s.bh * s.bh) := by
  unfold State.totBlk
  ring

theorem State.allocated_le_waves (s : State) : (s.wWave / s.bw * s.bw) * (s.hWave / s.bh * s.bh) ≤ s.waves :=
  Nat.mul_le_mul (Nat.div_mul_le_self _ _) (Nat.div_mul_le_self _ _)

/-- Settles O24: a sample's index from the digits of its coordinates, the blocks' room from that of the whole grid. -/
theorem blockSlicesAreContiguous : Obligations.BlockSlicesAreContiguous :=
  ⟨fun _ _ _ _ _ _ _ _ => mapIdx_blockSample, fun s => ⟨s.totBlk_mul_area, s.allocated_le_waves⟩⟩

end Sys2Proof.Machine
end

section
/-! SUPPORT. The ranges of 41_geometry_blockmap.md R158: the intermediate products of the map function, and the block count
(statement O25). -/

namespace Sys2Proof.Machine

/-! ### The intermediate products -/

/-- Where the whole blocks cover a row or column at all, one block fits. -/
theorem le_of_lt_div_mul {n b i : Nat} (h : i < n / b * b) : b ≤ n :=
  (Nat.le_mul_of_pos_left b (Nat.pos_of_mul_pos_right (Nat.zero_lt_of_lt h))).trans (Nat.div_mul_le_self n b)

/-- The products of the whole blocks' branch: each is a width of at most `wd` times a height of at most `ht`. -/
theorem blockProducts_le {wd ht bw bh x y : Nat} (hx : x < wd / bw * bw) (hy : y < ht / bh * bh) :
    wd / bw * bw * bh ≤ wd * ht ∧ bw * bh ≤ wd * ht ∧ y / bh * (wd / bw * bw * bh) ≤ wd * ht ∧
      x / bw * (bw * bh) ≤ wd * ht ∧ y % bh * bw ≤ wd * ht := by
  have haw : wd / bw * bw ≤ wd := Nat.div_mul_le_self wd bw
  have hbw : bw ≤ wd := le_of_lt_div_mul hx
  have hbh : bh ≤ ht := le_of_lt_div_mul hy
  have hcol : x / bw * bw ≤ wd := (Nat.div_mul_le_self x bw).trans (hx.le.trans haw)
  have hblockRow : y / bh * bh ≤ ht := (Nat.div_mul_le_self y bh).trans (hy.le.trans (Nat.div_mul_le_self ht bh))
  have hrow : y % bh ≤ ht := (Nat.mod_le y bh).trans (hy.le.trans (Nat.div_mul_le_self ht bh))
  refine ⟨Nat.mul_le_mul haw hbh, Nat.mul_le_mul hbw hbh, ?_, ?_, ?_⟩
  · calc y / bh * (wd / bw * bw * bh) = wd / bw * bw * (y / bh * bh) := by ring
      _ ≤ wd * ht := Nat.mul_le_mul haw hblockRow
  · calc x / bw * (bw * bh) = x / bw * bw * bh := (Nat.mul_assoc _ _ _).symm
      _ ≤ wd * ht := Nat.mul_le_mul hcol hbh
  · calc y % bh * bw = bw * (y % bh) := Nat.mul_comm _ _
      _ ≤ wd * ht := Nat.mul_le_mul hbw hrow

/-! ### The block count -/

/-- A block has four samples at least. -/
theorem State.totBlk_le_waves_div_four (s : State) : s.totBlk ≤ s.waves / 4 := by
  rw [Nat.le_div_iff_mul_le (by norm_num)]
  have harea : 2 * 2 ≤ s.area := Nat.mul_le_mul (canon_bounds _).1 (canon_bounds _).1
  exact (Nat.mul_le_mul_left _ harea).trans s.totBlk_mul_area_le

theorem State.waves_div_four_le (s : State) : s.waves / 4 ≤ (s.width + 1) * (s.height + 1) / 16 := by
  have hw : s.wWave * 2 ≤ s.width + 1 := Nat.div_mul_le_self _ 2
  have hh : s.hWave * 2 ≤ s.height + 1 := Nat.div_mul_le_self _ 2
  have hfour : 4 * s.waves ≤ (s.width + 1) * (s.height + 1) :=
    calc 4 * s.waves = s.wWave * 2 * (s.hWave * 2) := by unfold State.waves; ring
      _ ≤ (s.width + 1) * (s.height + 1) := Nat.mul_le_mul hw hh
  omega

/-- The extents are 16-bit fields, so that the border of the image adds little to its area. -/
theorem State.bordered_lt {s : State} (h : s.pixels ≤ 2 ^ 26) : (s.width + 1) * (s.height + 1) / 16 < 2 ^ 23 := by
  have hw : s.width < 2 ^ 16 := s.imgDim.w.isLt
  have hh : s.height < 2 ^ 16 := s.imgDim.h.isLt
  have hsum : (s.width + 1) * (s.height + 1) = s.pixels + s.width + s.height + 1 := by
    unfold State.pixels
    ring
  omega

/-- Settles O25, from the ranges of the map's branches, their products, and the chain of the block count. -/
theorem mapAndBlockCountInRange : Obligations.MapAndBlockCountInRange := by
  intro s himg hmax
  have haw : s.wWave / s.bw * s.bw ≤ s.wWave := Nat.div_mul_le_self _ _
  have hah : s.hWave / s.bh * s.bh ≤ s.hWave := Nat.div_mul_le_self _ _
  refine ⟨fun x hx y hy => ⟨?_, ?_, s.allocated_le_waves, fun _ _ => ?_, fun hyb hxb => blockProducts_le hxb hyb⟩,
    State.waves_le_maxPix himg, s.totBlk_le_waves_div_four, s.waves_div_four_le,
    State.bordered_lt ((State.pixels_le_maxPix himg).trans hmax), ?_, ?_⟩
  · rw [Nat.mul_comm]
    exact mapIdx_lt s.bw_pos s.bh_pos hx hy
  · rw [Nat.mul_comm]
    exact Nat.mul_le_mul_left _ hy.le
  · rw [Nat.mul_comm]
    exact Nat.mul_le_mul (Nat.sub_le _ _) hy.le
  · exact haw.trans (Nat.le_mul_of_pos_right _ (State.hWave_pos himg))
  · exact hah.trans (Nat.le_mul_of_pos_left _ (State.wWave_pos himg))

end Sys2Proof.Machine
end

section
/-! SUPPORT. MAPGEN's completion (41_geometry_blockmap.md R157): the values it leaves in BMAP, its frame, and that they are a
permutation (statements O15 and O23). -/

namespace Sys2Proof.Machine

/-- BMAP after MAPGEN has completed. -/
theorem bmap_toNat_mapgen {s : State} {k : Nat} (hk : k < s.waves) :
    ((finishCommand (effectOf .mapgen s)).elem .bmap k).toNat = mapEntry s k := by
  have hloaded : (effectOf .mapgen s).elem .bmap k = BitVec.ofNat 64 (mapEntry s k) := mapLoaded_effectMapgen s k hk
  rw [elem_finishCommand, hloaded, BitVec.toNat_ofNat]
  exact Nat.mod_eq_of_lt ((mapEntry_lt_two_pow hk).trans (by norm_num))

/-- The entry of a cell, by its coordinates. -/
theorem mapEntry_cell {s : State} {x : Nat} (hx : x < s.wWave) (y : Nat) :
    mapEntry s (y * s.wWave + x) = mapIdx s.wWave s.hWave s.bw s.bh x y := by
  rw [mapEntry, Nat.mul_add_mod', Nat.mod_eq_of_lt hx, Nat.mul_comm y, Nat.mul_add_div (Nat.zero_lt_of_lt hx),
    Nat.div_eq_of_lt hx, Nat.add_zero]

/-- MAPGEN replaces BMAP and sets MAP_VALID. -/
theorem effectMapgen_frame (s : State) :
    effectMapgen s = { s with bmap := (effectMapgen s).bmap, status := { s.status with mapValid := true } } := rfl

/-- Settles O15, from the entries MAPGEN leaves and its write set. -/
theorem mapgenWritesBlockMap : Obligations.MapgenWritesBlockMap := by
  intro s hbusy
  refine ⟨_, exec_of_busy .mapgen hbusy, fun x hx y hy => ?_, fun b i h => ?_, ?_⟩
  · have hcell : y * s.wWave + x < s.waves := (mul_add_lt_mul hy hx).trans_eq (Nat.mul_comm _ _)
    rw [bmap_toNat_mapgen hcell, mapEntry_cell hx]
  · exact elem_completed_outside (i := .mapgen) (n := s.waves) (bufs := [.bmap]) (by simp) (by simp [writeSet])
      (h.imp_right (by simp))
  · exact congrArg finishCommand (effectMapgen_frame s)

/-- The entries of two cells differ. -/
theorem mapEntry_inj {s : State} {k l : Nat} (hk : k < s.waves) (hl : l < s.waves) (h : mapEntry s k = mapEntry s l) :
    k = l := by
  have hw : 0 < s.wWave := Nat.pos_of_mul_pos_right (Nat.zero_lt_of_lt hk)
  obtain ⟨hx, hy⟩ := mapIdx_inj s.bw_pos s.bh_pos (Nat.mod_lt k hw) (Nat.div_lt_of_lt_mul hk) (Nat.mod_lt l hw)
    (Nat.div_lt_of_lt_mul hl) h
  exact Nat.ext_div_mod hy hx

/-- The entries are a permutation of the grid's indices: they stay within them, and no two are equal. -/
theorem mapEntry_existsUnique {s : State} {v : Nat} (hv : v < s.waves) : ∃! k, k < s.waves ∧ mapEntry s k = v := by
  have hmaps : Set.MapsTo (mapEntry s) (Finset.range s.waves) (Finset.range s.waves) := fun k hk => by
    simpa using mapEntry_lt (by simpa using hk)
  have hinj : Set.InjOn (mapEntry s) (Finset.range s.waves) := fun k hk l hl =>
    mapEntry_inj (by simpa using hk) (by simpa using hl)
  obtain ⟨k, hk, rfl⟩ := Finset.surjOn_of_injOn_of_card_le _ hmaps hinj le_rfl (by simpa using hv)
  have hk : k < s.waves := by simpa using hk
  exact ⟨k, ⟨hk, rfl⟩, fun l ⟨hl, he⟩ => mapEntry_inj hl hk he⟩

/-- Settles O23: the map is injective on a finite grid, and so a permutation; each branch keeps its range. -/
theorem blockMapIsBijection : Obligations.BlockMapIsBijection := by
  refine ⟨fun s hbusy => ⟨_, exec_of_busy .mapgen hbusy, fun v hv => ?_⟩, fun _ _ _ _ _ _ => mapIdx_ranges⟩
  obtain ⟨k, ⟨hk, he⟩, hunique⟩ := mapEntry_existsUnique hv
  exact ⟨k, ⟨hk, (bmap_toNat_mapgen hk).trans he⟩, fun l ⟨hl, hel⟩ => hunique l ⟨hl, (bmap_toNat_mapgen hl).symm.trans hel⟩⟩

end Sys2Proof.Machine
end

section
/-! SUPPORT. The completions of DWT and IDWT (42_dwt.md R173 to R177): the coefficients at each storage index, the samples, and
their frames (statements O16 and O17). -/

namespace Sys2Proof.Machine

/-! ### Where a kernel is stored -/

/-- The coordinates of a cell, from its index in a grid of `w` columns. -/
theorem cell_coordinates {w x : Nat} (hx : x < w) (y : Nat) : (y * w + x) % w = x ∧ (y * w + x) / w = y := by
  obtain ⟨hdiv, hmod⟩ := mul_add_inj (Nat.mod_lt _ (Nat.zero_lt_of_lt hx)) hx (Nat.div_add_mod' (y * w + x) w)
  exact ⟨hmod, hdiv⟩

theorem State.cell_lt_waves {s : State} {x y : Nat} (hx : x < s.wWave) (hy : y < s.hWave) : y * s.wWave + x < s.waves :=
  (mul_add_lt_mul hy hx).trans_eq (Nat.mul_comm _ _)

/-- Through a loaded map the storage index is the map's entry (R173). -/
theorem storageIndex_of_loaded {s : State} {m : Bool} (hm : m = true → MapLoaded s) {k : Nat} (hk : k < s.waves) :
    storageIndex s m k = if m then mapEntry s k else k := by
  cases m with
  | false => rfl
  | true =>
    rw [storageIndex, if_pos rfl, if_pos rfl, hm rfl k hk, BitVec.toNat_ofNat]
    exact Nat.mod_eq_of_lt ((mapEntry_lt_two_pow hk).trans (by norm_num))

theorem storageIndex_cell {s : State} {m : Bool} (hm : m = true → MapLoaded s) {x y : Nat} (hx : x < s.wWave)
    (hy : y < s.hWave) :
    storageIndex s m (y * s.wWave + x) = if m then mapIdx s.wWave s.hWave s.bw s.bh x y else y * s.wWave + x := by
  rw [storageIndex_of_loaded hm (State.cell_lt_waves hx hy), mapEntry_cell hx]

/-- No two kernels are stored at one index: the identity and the map are injective. -/
theorem storageIndex_inj {s : State} {m : Bool} (hm : m = true → MapLoaded s) :
    ∀ k < s.waves, ∀ l < s.waves, storageIndex s m k = storageIndex s m l → k = l := by
  intro k hk l hl h
  rw [storageIndex_of_loaded hm hk, storageIndex_of_loaded hm hl] at h
  cases m with
  | false => exact h
  | true => exact mapEntry_inj hk hl h

/-! ### The four stores of DWT -/

/-- The last store wins. -/
theorem State.elem_writeAt_succ (s : State) (b : Buf) (n : Nat) (idx : Nat → Nat) (val : Nat → Word64) (j : Nat) :
    (s.writeAt b (n + 1) idx val).elem b j =
      if j = idx n then packElem b (val n) else (s.writeAt b n idx val).elem b j := by
  simp only [State.elem, State.writeAt, State.scatter, State.unwritten, State.setBuf_unwrittenSeed, State.buf_setBuf_same,
    scatterElems]
  rw [readElem_putElem (.inl (by simp))]
  split_ifs
  · simp [elemValue]
  · rfl

/-- What `writeAt` leaves in its buffer depends on that buffer's elements only. -/
theorem State.elem_writeAt_congr {s t : State} {b : Buf} (h : ∀ i, s.elem b i = t.elem b i) (n : Nat) (idx : Nat → Nat)
    (val : Nat → Word64) (j : Nat) : (s.writeAt b n idx val).elem b j = (t.writeAt b n idx val).elem b j := by
  induction n with
  | zero => rw [s.elem_writeAt_miss b val (by simp), t.elem_writeAt_miss b val (by simp), h]
  | succ n ih => rw [State.elem_writeAt_succ, State.elem_writeAt_succ, ih]

/-- The subband buffers of a channel, each with the coefficient stored there. -/
def subbands (ch : Channel) : List (Buf × (Coeffs → Word32)) :=
  [(.sba ch, Coeffs.cA), (.sbh ch, Coeffs.cH), (.sbv ch, Coeffs.cV), (.sbd ch, Coeffs.cD)]

theorem forall_mem_subbands {ch : Channel} {P : Buf × (Coeffs → Word32) → Prop} :
    (∀ p ∈ subbands ch, P p) ↔
      P (.sba ch, Coeffs.cA) ∧ P (.sbh ch, Coeffs.cH) ∧ P (.sbv ch, Coeffs.cV) ∧ P (.sbd ch, Coeffs.cD) := by
  simp [subbands]

/-- DWT leaves in each subband what storing that coefficient alone would. -/
theorem elem_effectDwt (ch : Channel) (m : Bool) (s : State) (j : Nat) : ∀ p ∈ subbands ch,
    (effectDwt ch m s).elem p.1 j =
      (s.writeAt p.1 s.waves (storageIndex s m) fun k => (p.2 (forwardAt s ch k)).setWidth 64).elem p.1 j := by
  rw [forall_mem_subbands]
  unfold effectDwt
  refine ⟨?_, ?_, ?_, ?_⟩
  · simp only [ne_eq, reduceCtorEq, not_false_eq_true, State.elem_writeAt_other]
  · simp only [ne_eq, reduceCtorEq, not_false_eq_true, State.elem_writeAt_other]
    exact State.elem_writeAt_congr (fun i => by simp [State.elem_writeAt_other]) _ _ _ j
  · simp only [ne_eq, reduceCtorEq, not_false_eq_true, State.elem_writeAt_other]
    exact State.elem_writeAt_congr (fun i => by simp [State.elem_writeAt_other]) _ _ _ j
  · exact State.elem_writeAt_congr (fun i => by simp [State.elem_writeAt_other]) _ _ _ j

theorem elemBits_subband (ch : Channel) : ∀ p ∈ subbands ch, elemBits p.1 = 32 :=
  forall_mem_subbands.mpr ⟨rfl, rfl, rfl, rfl⟩

/-- The kernel of a cell, with edge replication (R170, R174). -/
theorem forwardAt_cell {s : State} (ch : Channel) {x : Nat} (hx : x < s.wWave) (y : Nat) :
    forwardAt s ch (y * s.wWave + x) =
      haarForward (sample s ch (2 * x) (2 * y)) (sample s ch (2 * x) (min (2 * y + 1) (s.height - 1)))
        (sample s ch (min (2 * x + 1) (s.width - 1)) (2 * y))
        (sample s ch (min (2 * x + 1) (s.width - 1)) (min (2 * y + 1) (s.height - 1))) := by
  obtain ⟨hcol, hrow⟩ := cell_coordinates hx y
  simp only [forwardAt, hcol, hrow]

/-- A completed DWT has each cell's coefficients at its storage index. -/
theorem completedDwt_cell {ch : Channel} {m : Bool} {s : State} (hm : m = true → MapLoaded s) {x y : Nat} (hx : x < s.wWave)
    (hy : y < s.hWave) : ∀ p ∈ subbands ch,
    (finishCommand (effectOf (.dwt ch m) s)).elem32 p.1
        (if m then mapIdx s.wWave s.hWave s.bw s.bh x y else y * s.wWave + x) =
      p.2 (forwardAt s ch (y * s.wWave + x)) := by
  intro p hp
  have hstored : (effectDwt ch m s).elem p.1 (storageIndex s m (y * s.wWave + x)) =
      packElem p.1 ((p.2 (forwardAt s ch (y * s.wWave + x))).setWidth 64) :=
    (elem_effectDwt ch m s _ p hp).trans
      (s.elem_writeAt_hit p.1 _ (storageIndex_inj hm) (State.cell_lt_waves hx hy))
  rw [elem32_finishCommand, ← storageIndex_cell hm hx hy, State.elem32, effectOf, hstored,
    setWidth_packElem32 (elemBits_subband ch p hp)]

/-- DWT changes no element at which no kernel is stored, whatever BMAP holds. -/
theorem effectDwt_elem_outside {ch : Channel} {m : Bool} {s : State} {b : Buf} {j : Nat}
    (h : b ∈ [Buf.sba ch, .sbh ch, .sbv ch, .sbd ch] → ∀ k < s.waves, storageIndex s m k ≠ j) :
    (effectDwt ch m s).elem b j = s.elem b j := by
  have hmiss {b' : Buf} (hb : b' ∈ [Buf.sba ch, .sbh ch, .sbv ch, .sbd ch]) :
      b' = b → ∀ k < s.waves, storageIndex s m k ≠ j := fun e => h (e ▸ hb)
  unfold effectDwt
  rw [State.elem_writeAt_outside _ (hmiss (by simp)), State.elem_writeAt_outside _ (hmiss (by simp)),
    State.elem_writeAt_outside _ (hmiss (by simp)), State.elem_writeAt_outside _ (hmiss (by simp))]

/-- DWT replaces the subband buffers. -/
theorem effectDwt_frame (ch : Channel) (m : Bool) (s : State) :
    ∃ a h v d, effectDwt ch m s = { s with sba := a, sbh := h, sbv := v, sbd := d } := ⟨_, _, _, _, rfl⟩

/-- Settles O16, from each cell's coefficients and the elements outside the stores. -/
theorem dwtWritesSubbands : Obligations.DwtWritesSubbands := by
  intro ch m s hbusy
  refine ⟨_, exec_of_busy (.dwt ch m) hbusy, fun hm x y hx hy => ?_, fun b j h => ?_, ?_⟩
  · have hx : x < s.wWave := by unfold State.wWave; omega
    have hy : y < s.hWave := by unfold State.hWave; omega
    obtain ⟨hA, hH, hV, hD⟩ := forall_mem_subbands.mp (completedDwt_cell (ch := ch) hm hx hy)
    rw [forwardAt_cell ch hx] at hA hH hV hD
    exact ⟨hA, hV, hH, hD⟩
  · exact (elem_finishCommand _ b j).trans (effectDwt_elem_outside h)
  · obtain ⟨a, h, v, d, he⟩ : ∃ a h v d, effectOf (.dwt ch m) s = { s with sba := a, sbh := h, sbv := v, sbd := d } :=
      effectDwt_frame ch m s
    rw [he]
    rfl

/-! ### The samples of IDWT -/

/-- The sample a completed IDWT leaves at column x, row y. -/
theorem completedIdwt_sample (ch : Channel) (m : Bool) {s : State} {x y : Nat} (hx : x < s.width) (hy : y < s.height) :
    (finishCommand (effectOf (.idwt ch m) s)).elem32 (.chan ch) (y * s.width + x) = inverseAt s ch m x y := by
  obtain ⟨hcol, hrow⟩ := cell_coordinates hx y
  have hpixel : y * s.width + x < s.pixels := (mul_add_lt_mul hy hx).trans_eq (Nat.mul_comm _ _)
  rw [elem32_finishCommand, effectOf, effectIdwt, s.elem32_writeFrom32_zero rfl hpixel, hcol, hrow]

/-- Settles O17: the sample is one of its kernel's four, by the parities of its row and column. -/
theorem idwtWritesChannel : Obligations.IdwtWritesChannel := by
  intro ch m s hbusy
  refine ⟨_, exec_of_busy (.idwt ch m) hbusy, fun x hx y hy => ?_, fun b i h => ?_, ?_⟩
  · intro k j a d column
    rw [completedIdwt_sample ch m hx hy]
    by_cases hcol : x % 2 = 0
    · have hcolumn : column = icacd32 a.a d.a := if_pos hcol
      rw [hcolumn, inverseAt, if_pos hcol, if_pos hcol]
      rfl
    · have hcolumn : column = icacd32 a.d d.d := if_neg hcol
      rw [hcolumn, inverseAt, if_neg hcol, if_neg hcol]
      rfl
  · exact elem_completed_outside (i := .idwt ch m) (n := s.pixels) (bufs := [.chan ch]) (by simp) (by simp [writeSet])
      (h.imp_right (by simp))
  · obtain ⟨c, hc⟩ := s.exists_chan_writeFrom32 ch 0 s.pixels fun i => inverseAt s ch m (i % s.width) (i / s.width)
    have he : effectOf (.idwt ch m) s = { s with chan := c } := hc
    rw [he]
    rfl

end Sys2Proof.Machine
end

section
/-! SUPPORT. The channels' independence (42_dwt.md R180): what DWT and IDWT of a channel read and write, and that effects on two
channels commute as functions of the state (statement O30). -/

namespace Sys2Proof.Machine

/-! ### Stores into two buffers -/

theorem Banks.set_comm (b : Banks) {c c' : Channel} (h : c ≠ c') (m m' : Buffer) :
    (b.set c m).set c' m' = (b.set c' m').set c m := by
  cases c <;> cases c' <;> first | rfl | exact absurd rfl h

theorem State.setBuf_comm (s : State) {b b' : Buf} (h : b ≠ b') (m m' : Buffer) :
    (s.setBuf b m).setBuf b' m' = (s.setBuf b' m').setBuf b m := by
  cases b <;> cases b' <;>
    first
    | rfl
    | exact absurd rfl h
    | simp only [State.setBuf, Banks.set_comm _ (fun e => h (congrArg _ e))]

theorem State.writeAt_comm (s : State) {b b' : Buf} (h : b ≠ b') (n n' : Nat) (idx idx' : Nat → Nat) (val val' : Nat → Word64) :
    (s.writeAt b n idx val).writeAt b' n' idx' val' = (s.writeAt b' n' idx' val').writeAt b n idx val := by
  simp only [State.writeAt, State.scatter, State.unwritten, State.setBuf_unwrittenSeed, State.buf_setBuf_other _ _ h,
    State.buf_setBuf_other _ _ h.symm]
  exact s.setBuf_comm h _ _

/-- `f` may be run before or after any store into `b`. -/
def PassesStores (f : State → State) (b : Buf) : Prop :=
  ∀ (s : State) (n : Nat) (idx : Nat → Nat) (val : Nat → Word64), f (s.writeAt b n idx val) = (f s).writeAt b n idx val

/-! ### What an effect on a channel reads and writes -/

/-- The banks of a channel. -/
def channelBufs (ch : Channel) : List Buf := [.chan ch, .sba ch, .sbh ch, .sbv ch, .sbd ch]

/-- The buffers DWT and IDWT of a channel use: its banks and the map. -/
def channelInputs (ch : Channel) : List Buf := [.chan ch, .sba ch, .sbh ch, .sbv ch, .sbd ch, .bmap]

theorem mem_channelInputs_of_mem_channelBufs {ch : Channel} {b : Buf} (h : b ∈ channelBufs ch) : b ∈ channelInputs ch :=
  (List.mem_append_left [.bmap] h : b ∈ channelBufs ch ++ [.bmap])

/-- A bank of a channel is its samples or one of its subbands. -/
theorem mem_channelBufs {ch : Channel} {b : Buf} :
    b ∈ channelBufs ch ↔ b = .chan ch ∨ ∃ p ∈ subbands ch, p.1 = b := by
  simp [channelBufs, subbands, eq_comm]

/-- The banks of one channel are no inputs of another. -/
theorem notMem_channelInputs {c ch : Channel} (h : c ≠ ch) {b : Buf} (hb : b ∈ channelBufs ch) : b ∉ channelInputs c := by
  simp only [channelBufs, List.mem_cons, List.not_mem_nil, or_false] at hb
  rcases hb with rfl | rfl | rfl | rfl | rfl <;> simp [channelInputs, h.symm]

/-- Two states that DWT and IDWT of a channel do not tell apart. -/
structure SameInputs (ch : Channel) (s t : State) : Prop where
  imgDim : s.imgDim = t.imgDim
  elem : ∀ b ∈ channelInputs ch, ∀ i, s.elem b i = t.elem b i

namespace SameInputs

variable {ch : Channel} {s t : State}

theorem storageIndex (h : SameInputs ch s t) (m : Bool) : storageIndex s m = storageIndex t m := by
  funext k
  simp only [Machine.storageIndex, h.elem .bmap (by simp [channelInputs]) k]

theorem forwardAt (h : SameInputs ch s t) : forwardAt s ch = forwardAt t ch := by
  funext k
  simp only [Machine.forwardAt, sample, State.elem32, State.wWave, State.width, State.height, h.imgDim,
    h.elem (.chan ch) (by simp [channelInputs])]

theorem inverseAt (h : SameInputs ch s t) (m : Bool) : inverseAt s ch m = inverseAt t ch m := by
  funext x y
  simp only [Machine.inverseAt, coeffsAt, State.elem32, State.wWave, State.width, h.imgDim, h.storageIndex m,
    h.elem (.sba ch) (by simp [channelInputs]), h.elem (.sbh ch) (by simp [channelInputs]),
    h.elem (.sbv ch) (by simp [channelInputs]), h.elem (.sbd ch) (by simp [channelInputs])]

theorem width (h : SameInputs ch s t) : s.width = t.width := congrArg (·.w.toNat) h.imgDim

theorem waves (h : SameInputs ch s t) : s.waves = t.waves := by
  simp only [State.waves, State.wWave, State.hWave, State.width, State.height, h.imgDim]

theorem pixels (h : SameInputs ch s t) : s.pixels = t.pixels := by
  simp only [State.pixels, State.width, State.height, h.imgDim]

end SameInputs

/-- An effect on a channel: it changes no element but of that channel's banks, finds everything it needs in its inputs, and
may be run before or after a `g` that leaves these inputs and does not use the banks. -/
structure ChannelEffect (ch : Channel) (f : State → State) : Prop where
  frame : ∀ (s : State) (b : Buf), b ∉ channelBufs ch → ∀ i, (f s).elem b i = s.elem b i
  imgDim : ∀ s : State, (f s).imgDim = s.imgDim
  reads : ∀ {s t : State}, SameInputs ch s t → ∀ b ∈ channelBufs ch, ∀ i, (f s).elem b i = (f t).elem b i
  comm : ∀ {g : State → State}, (∀ s, SameInputs ch (g s) s) → (∀ b ∈ channelBufs ch, PassesStores g b) →
    ∀ s, f (g s) = g (f s)

/-! ### DWT and IDWT -/

/-- DWT leaves the channel's samples, and its subbands depend on its inputs only. -/
theorem effectDwt_elem_congr {ch : Channel} {s t : State} (h : SameInputs ch s t) (m : Bool) {b : Buf}
    (hb : b ∈ channelBufs ch) (i : Nat) : (effectDwt ch m s).elem b i = (effectDwt ch m t).elem b i := by
  have hinput := h.elem b (mem_channelInputs_of_mem_channelBufs hb)
  rcases mem_channelBufs.mp hb with rfl | ⟨p, hp, rfl⟩
  · have hchan (r : State) : (effectDwt ch m r).elem (.chan ch) i = r.elem (.chan ch) i := effectDwt_elem_outside (by simp)
    rw [hchan, hchan, hinput]
  · rw [elem_effectDwt ch m s i p hp, elem_effectDwt ch m t i p hp, h.waves, h.storageIndex m, h.forwardAt]
    exact State.elem_writeAt_congr hinput _ _ _ i

/-- IDWT leaves the channel's subbands, and its samples depend on its inputs only. -/
theorem effectIdwt_elem_congr {ch : Channel} {s t : State} (h : SameInputs ch s t) (m : Bool) {b : Buf}
    (hb : b ∈ channelBufs ch) (i : Nat) : (effectIdwt ch m s).elem b i = (effectIdwt ch m t).elem b i := by
  have hinput := h.elem b (mem_channelInputs_of_mem_channelBufs hb)
  unfold effectIdwt
  rw [h.pixels, h.width, h.inverseAt m]
  by_cases hchan : b = .chan ch
  · subst hchan
    exact State.elem_writeAt_congr hinput _ _ _ i
  · rw [State.elem_writeFrom32_other _ hchan, State.elem_writeFrom32_other _ hchan, hinput]

theorem channelEffect_dwt (ch : Channel) (m : Bool) : ChannelEffect ch (effectDwt ch m) where
  frame s b hb i := effectDwt_elem_outside fun hmem => absurd (List.mem_cons_of_mem _ hmem) hb
  imgDim s := (sameOutside_effect (.dwt ch m) s).imgDim
  reads h _ hb i := effectDwt_elem_congr h m hb i
  comm {g} hsame hpass s := by
    have h := hsame s
    unfold effectDwt
    rw [hpass (.sbd ch) (by simp [channelBufs]), hpass (.sbv ch) (by simp [channelBufs]),
      hpass (.sbh ch) (by simp [channelBufs]), hpass (.sba ch) (by simp [channelBufs]), h.waves, h.storageIndex m, h.forwardAt]

theorem channelEffect_idwt (ch : Channel) (m : Bool) : ChannelEffect ch (effectIdwt ch m) where
  frame s b hb i := effectOf_elem_other (.idwt ch m) s (fun p hp e => hb (by simp_all [writeSet, channelBufs])) i
  imgDim s := (sameOutside_effect (.idwt ch m) s).imgDim
  reads h _ hb i := effectIdwt_elem_congr h m hb i
  comm {g} hsame hpass s := by
    have h := hsame s
    unfold effectIdwt
    rw [h.pixels, h.width, h.inverseAt m]
    exact (hpass (.chan ch) (by simp [channelBufs]) s _ _ _).symm

namespace ChannelEffect

variable {c ch : Channel} {f g : State → State}

/-- An effect on a channel does not use a buffer that is none of its inputs. -/
theorem passesStores (hf : ChannelEffect ch f) {b : Buf} (hb : b ∉ channelInputs ch) : PassesStores f b := by
  intro s n idx val
  have hne {b' : Buf} (h : b' ∈ channelInputs ch) : b' ≠ b := fun e => hb (e ▸ h)
  exact hf.comm (g := fun s => s.writeAt b n idx val)
    (fun s => ⟨s.writeAt_imgDim b n idx val, fun b' hb' i => s.elem_writeAt_other (hne hb') n idx val i⟩)
    (fun b' hb' s _ _ _ => s.writeAt_comm (hne (mem_channelInputs_of_mem_channelBufs hb')) _ _ _ _ _ _) s

/-- Effects on two channels commute. -/
theorem commute (hf : ChannelEffect ch f) (hg : ChannelEffect c g) (h : c ≠ ch) (s : State) : f (g s) = g (f s) := by
  refine hf.comm (fun s => ⟨hg.imgDim s, fun b hb i => hg.frame s b (fun hbc => ?_) i⟩)
    (fun b hb => hg.passesStores (notMem_channelInputs h hb)) s
  exact notMem_channelInputs h.symm hbc hb

end ChannelEffect

theorem channelEffect_of_mem {ch : Channel} {m : Bool} {f : State → State} (h : f ∈ [effectDwt ch m, effectIdwt ch m]) :
    ChannelEffect ch f := by
  rcases List.mem_pair.mp h with rfl | rfl
  · exact channelEffect_dwt ch m
  · exact channelEffect_idwt ch m

/-- Settles O30: DWT and IDWT are effects on their channel, and those of two channels commute. -/
theorem channelsAreIndependent : Obligations.ChannelsAreIndependent := by
  intro ch m f hf
  have hf := channelEffect_of_mem hf
  exact ⟨hf.frame, fun s t hdim helem => hf.reads ⟨hdim, helem⟩,
    fun c m' hne g hg s => hf.commute (channelEffect_of_mem hg) hne s⟩

end Sys2Proof.Machine
end

section
/-! SUPPORT. The forward kernel at replicated edges (42_dwt.md R174, corner cases): the kernel's operations stay in range, the
mean of two equal values is that value, and so the details are +0 (statement O29). -/

namespace Sys2Proof.Machine

/-! ### Results in range -/

/-- Rounding does not pass a magnitude of the format. -/
theorem roundPattern_le {F : Format} (hF : 0 < F.fracBits) {num den p : Nat} (hd : 0 < den)
    (h : num ≤ magnitudeUnits F p * den) : roundPattern F num den ≤ p := by
  obtain ⟨hlow, hhigh, hcases⟩ := roundPattern_cases hF num hd
  by_contra hp
  have hmono {a b : Nat} (hab : a ≤ b) : magnitudeUnits F a * den ≤ magnitudeUnits F b * den :=
    Nat.mul_le_mul_right den ((magnitudeUnits_strictMono F).monotone hab)
  have hfloor : p ≤ floorPattern F num den := by omega
  have := hmono hfloor
  rcases hcases with ⟨hr, -, -⟩ | ⟨-, hhalf, -⟩
  · have hnext := Nat.mul_lt_mul_of_pos_right (magnitudeUnits_strictMono F (hr ▸ not_le.mp hp)) hd
    omega
  · omega

/-- A power of two of units is a magnitude. -/
theorem magnitudeUnits_two_pow (F : Format) {K : Nat} (hK : F.fracBits ≤ K) :
    magnitudeUnits F ((K - F.fracBits) * 2 ^ F.fracBits + 2 ^ F.fracBits) = 2 ^ K := by
  rw [magnitudeUnits_place F (by omega) (.inr le_rfl), ← pow_add, Nat.add_sub_cancel' hK]

/-- The pattern is finite and of at most `2 ^ K` units. -/
def Within32 (v : Word32) (K : Nat) : Prop := ∃ neg m, fp32 v = .fin neg m ∧ m ≤ 2 ^ K

/-- A power of two bounds the rounded value where it bounds the exact one. -/
theorem within32_packRound (neg : Bool) {num den K : Nat} (hd : 0 < den) (hlow : 23 ≤ K) (hhigh : K ≤ 276)
    (h : num ≤ 2 ^ K * den) : Within32 (BitVec.ofNat 32 (packRound binary32 neg num den)) K := by
  have hunits := magnitudeUnits_two_pow binary32 (K := K) hlow
  simp only [binary32_fracBits] at hunits
  have hinf : (K - 23) * 2 ^ 23 + 2 ^ 23 < infBits binary32 := by
    simp only [infBits, binary32_fracBits, binary32_expBits]
    omega
  have hpattern : roundUnits binary32 num den ≤ (K - 23) * 2 ^ 23 + 2 ^ 23 :=
    (min_le_right _ _).trans (roundPattern_le (by simp) hd (by rwa [hunits]))
  have hfinite := hpattern.trans_lt hinf
  refine ⟨neg, magnitudeUnits binary32 (roundUnits binary32 num den), ?_, ?_⟩
  · rw [packRound, fp32_ofNat (packSign_lt _ _ hfinite.le), unpackFp_packSign _ _ hfinite]
    rfl
  · exact ((magnitudeUnits_strictMono binary32).monotone hpattern).trans_eq hunits

theorem Within32.mono {v : Word32} {K L : Nat} (h : Within32 v K) (hKL : K ≤ L) : Within32 v L := by
  obtain ⟨neg, m, hv, hle⟩ := h
  exact ⟨neg, m, hv, hle.trans (Nat.pow_le_pow_right two_pos hKL)⟩

theorem fp32_two32 : fp32 two32 = .fin false (2 ^ 150) := by decide +kernel

theorem fp32_sq2f : fp32 sq2f = .fin false (11863283 * 2 ^ 126) := by decide +kernel

section Operations

variable {u v : Word32} {K : Nat}

/-- A sum of data in range, by the signs. -/
theorem within32_addFp (op : FpOp) (p q : Word64) {s t : Bool} {m n : Nat} (hm : m ≤ 2 ^ K) (hn : n ≤ 2 ^ K) (hlow : 23 ≤ K)
    (hhigh : K < 276) : Within32 (result32 op p q (addFp binary32 (.fin s m) (.fin t n))) (K + 1) := by
  have hround (neg : Bool) {r : Nat} (hr : r ≤ m + n) :
      Within32 (BitVec.ofNat 32 (packRound binary32 neg r 1)) (K + 1) :=
    within32_packRound neg one_pos (by omega) hhigh (by rw [pow_succ]; omega)
  unfold addFp
  dsimp only
  split_ifs
  · exact hround s le_rfl
  · exact ⟨false, 0, fp32_zero, Nat.zero_le _⟩
  · exact hround s (by omega)
  · exact hround t (by omega)

theorem Within32.add (hu : Within32 u K) (hv : Within32 v K) (hlow : 23 ≤ K) (hhigh : K < 276) :
    Within32 (add32 u v) (K + 1) := by
  obtain ⟨s, m, hs, hm⟩ := hu
  obtain ⟨t, n, ht, hn⟩ := hv
  rw [add32, hs, ht]
  exact within32_addFp _ _ _ hm hn hlow hhigh

theorem Within32.sub (hu : Within32 u K) (hv : Within32 v K) (hlow : 23 ≤ K) (hhigh : K < 276) :
    Within32 (sub32 u v) (K + 1) := by
  obtain ⟨s, m, hs, hm⟩ := hu
  obtain ⟨t, n, ht, hn⟩ := hv
  rw [sub32, hs, ht]
  exact within32_addFp _ _ _ hm hn hlow hhigh

theorem Within32.half (hu : Within32 u K) (hlow : 23 ≤ K) (hhigh : K ≤ 276) : Within32 (div32 u two32) K := by
  obtain ⟨s, m, hs, hm⟩ := hu
  rw [div32, hs, fp32_two32]
  refine within32_packRound _ (by positivity) hlow hhigh (Nat.mul_le_mul hm ?_)
  exact Nat.pow_le_pow_right two_pos (by simp)

theorem Within32.scale (hu : Within32 u K) (hlow : 23 ≤ K) (hhigh : K < 276) : Within32 (mul32 u sq2f) (K + 1) := by
  obtain ⟨s, m, hs, hm⟩ := hu
  rw [mul32, hs, fp32_sq2f]
  refine within32_packRound _ (by positivity) (by omega) hhigh ?_
  calc m * (11863283 * 2 ^ 126) ≤ 2 ^ K * (2 * 2 ^ 149) := Nat.mul_le_mul hm (by norm_num)
    _ = 2 ^ (K + 1) * 2 ^ 149 := by ring

/-- Both outputs of `cacd32` grow by a factor of eight at most. -/
theorem within32_cacd32 (hu : Within32 u K) (hv : Within32 v K) (hlow : 23 ≤ K) (hhigh : K + 3 ≤ 276) :
    Within32 (cacd32 u v).a (K + 3) ∧ Within32 (cacd32 u v).d (K + 3) := by
  have hmean : Within32 (div32 (add32 u v) two32) (K + 1) :=
    (hu.add hv hlow (by omega)).half (by omega) (by omega)
  have hrest : Within32 (sub32 u (div32 (add32 u v) two32)) (K + 2) :=
    (hu.mono (by omega)).sub hmean (by omega) (by omega)
  exact ⟨(hmean.scale (by omega) (by omega)).mono (by omega), hrest.scale (by omega) (by omega)⟩

end Operations

/-! ### The detail of two equal values -/

/-- Doubling a magnitude gives a magnitude: a subnormal's significand is doubled, any other's exponent raised. -/
theorem exists_magnitudeUnits_double (F : Format) (p : Nat) :
    ∃ q, magnitudeUnits F q = magnitudeUnits F p + magnitudeUnits F p := by
  obtain ⟨k, n, rfl, hn, hk⟩ := exists_place F p
  rw [magnitudeUnits_place F hn.le hk]
  rcases Nat.lt_or_ge n (2 ^ F.fracBits) with hlt | hge
  · obtain rfl : k = 0 := by omega
    exact ⟨0 * 2 ^ F.fracBits + 2 * n, by rw [magnitudeUnits_place F (by omega) (.inl rfl)]; omega⟩
  · exact ⟨(k + 1) * 2 ^ F.fracBits + n, by rw [magnitudeUnits_place F hn.le (.inr hge), pow_succ]; ring⟩

/-- Half the sum of a value and itself is that value, where the sum does not overflow. -/
theorem mean_self {u : Word32} {neg : Bool} {m K : Nat} (hu : fp32 u = .fin neg m) (hm : m < 2 ^ K) (hK : K ≤ 276) :
    div32 (add32 u u) two32 = u := by
  obtain ⟨p, hp, hpattern, rfl⟩ := eq_packSign_of_fp32_fin hu
  obtain ⟨q, hq⟩ := exists_magnitudeUnits_double binary32 p
  have hfinite : q < infBits binary32 := by
    rw [← (magnitudeUnits_strictMono binary32).lt_iff_lt, hq, magnitudeUnits_infBits (by simp)]
    calc magnitudeUnits binary32 p + magnitudeUnits binary32 p < 2 ^ (K + 1) := by rw [pow_succ]; omega
      _ ≤ 2 ^ (1 + binary32.fracBits + (2 ^ binary32.expBits - 3)) :=
        pow_le_pow_right₀ one_le_two (by simp only [binary32_fracBits, binary32_expBits]; omega)
  have hsum : fp32 (add32 u u) = .fin neg (magnitudeUnits binary32 p + magnitudeUnits binary32 p) := by
    have hround : roundUnits binary32 (magnitudeUnits binary32 p + magnitudeUnits binary32 p) 1 = q := by
      simpa [hq] using roundUnits_magnitudeUnits (F := binary32) (by simp) hfinite.le one_pos
    rw [add32, hu, addFp, if_pos rfl, result32, packRound, hround, fp32_ofNat (packSign_lt _ _ hfinite.le),
      unpackFp_packSign _ _ hfinite]
    exact congrArg _ hq
  have hhalf : roundUnits binary32 ((magnitudeUnits binary32 p + magnitudeUnits binary32 p) * 2 ^ 149) (2 ^ 150) = p := by
    rw [show (magnitudeUnits binary32 p + magnitudeUnits binary32 p) * 2 ^ 149 = magnitudeUnits binary32 p * 2 ^ 150 by ring]
    exact roundUnits_magnitudeUnits (by simp) hp.le (by positivity)
  rw [div32, hsum, fp32_two32, divFp, if_neg (by positivity), result32, packRound, binary32_unitExp, hhalf, Bool.bne_false,
    ← hpattern]

theorem sub32_self {u : Word32} {neg : Bool} {m : Nat} (hu : fp32 u = .fin neg m) : sub32 u u = 0 := by
  rw [sub32, hu]
  simp [negFp, addFp, result32]

theorem mul32_zero_sq2f : mul32 0 sq2f = 0 := by decide +kernel

/-- The detail of two equal values is +0: the mean is the value itself (R174). -/
theorem cacd32_self_d {u : Word32} {neg : Bool} {m K : Nat} (hu : fp32 u = .fin neg m) (hm : m < 2 ^ K) (hK : K ≤ 276) :
    (cacd32 u u).d = 0 := by
  simp only [cacd32, mean_self hu hm hK, sub32_self hu, mul32_zero_sq2f]

theorem cacd32_self_d_of_within32 {u : Word32} {K : Nat} (hu : Within32 u K) (hK : K < 276) : (cacd32 u u).d = 0 := by
  obtain ⟨neg, m, hv, hle⟩ := hu
  exact cacd32_self_d hv (hle.trans_lt (Nat.pow_lt_pow_right one_lt_two K.lt_succ_self)) hK

/-! ### The kernel at the edges -/

section Edges

variable {s00 s10 s01 : Word32}

/-- Two equal columns leave no vertical and no diagonal detail. -/
theorem haarForward_equalColumns (h0 : Within32 s00 270) (h1 : Within32 s10 270) :
    (haarForward s00 s10 s00 s10).cV = 0 ∧ (haarForward s00 s10 s00 s10).cD = 0 := by
  obtain ⟨ha, hd⟩ := within32_cacd32 h0 h1 (by norm_num) (by norm_num)
  exact ⟨cacd32_self_d_of_within32 ha (by norm_num), cacd32_self_d_of_within32 hd (by norm_num)⟩

theorem cacd32_zero : cacd32 0 0 = ⟨0, 0⟩ := by decide +kernel

/-- Two equal rows leave no horizontal and no diagonal detail. -/
theorem haarForward_equalRows (h0 : Within32 s00 270) (h1 : Within32 s01 270) :
    (haarForward s00 s00 s01 s01).cH = 0 ∧ (haarForward s00 s00 s01 s01).cD = 0 := by
  simp only [haarForward, cacd32_self_d_of_within32 h0 (by norm_num), cacd32_self_d_of_within32 h1 (by norm_num),
    cacd32_zero, and_self]

end Edges

/-- Settles O29: at an odd edge the replicated column or row makes the kernel's two columns or rows equal. -/
theorem edgeReplicationZeroesDetails : Obligations.EdgeReplicationZeroesDetails := by
  refine ⟨fun u neg m hu hm => cacd32_self_d hu hm le_rfl, fun ch m s t hbusy hmap ht hfinite => ?_⟩
  obtain rfl := Host.Outcome.next.inj ((exec_of_busy (.dwt ch m) hbusy).symm.trans ht)
  have hsample {x y : Nat} (hx : x < s.width) (hy : y < s.height) : Within32 (sample s ch x y) 270 := by
    obtain ⟨neg, u, hu, hlt⟩ := hfinite (y * s.width + x) ((mul_add_lt_mul hy hx).trans_eq (Nat.mul_comm _ _))
    exact ⟨neg, u, hu, hlt.le⟩
  have hwidth : s.wWave = (s.width + 1) / 2 := rfl
  have hheight : s.hWave = (s.height + 1) / 2 := rfl
  intro j
  refine ⟨fun hodd y hy => ?_, fun hodd x hx => ?_⟩
  · have hx : s.wWave - 1 < s.wWave := by omega
    have hedge : min (2 * (s.wWave - 1) + 1) (s.width - 1) = 2 * (s.wWave - 1) := by omega
    obtain ⟨-, -, hV, hD⟩ := forall_mem_subbands.mp (completedDwt_cell (ch := ch) hmap hx hy)
    rw [forwardAt_cell ch hx, hedge] at hV hD
    obtain ⟨hv, hd⟩ := haarForward_equalColumns (hsample (x := 2 * (s.wWave - 1)) (y := 2 * y) (by omega) (by omega))
      (hsample (x := 2 * (s.wWave - 1)) (y := min (2 * y + 1) (s.height - 1)) (by omega) (by omega))
    exact ⟨hV.trans hv, hD.trans hd⟩
  · have hy : s.hWave - 1 < s.hWave := by omega
    have hedge : min (2 * (s.hWave - 1) + 1) (s.height - 1) = 2 * (s.hWave - 1) := by omega
    obtain ⟨-, hH, -, hD⟩ := forall_mem_subbands.mp (completedDwt_cell (ch := ch) hmap hx hy)
    rw [forwardAt_cell ch hx, hedge] at hH hD
    obtain ⟨hh, hd⟩ := haarForward_equalRows (hsample (x := 2 * x) (y := 2 * (s.hWave - 1)) (by omega) (by omega))
      (hsample (x := min (2 * x + 1) (s.width - 1)) (y := 2 * (s.hWave - 1)) (by omega) (by omega))
    exact ⟨hH.trans hh, hD.trans hd⟩

end Sys2Proof.Machine
end

section
/-! SUPPORT. The tolerance of 42_dwt.md R179, read for every finite channel: a concrete channel whose round trip misses it
(statement O38). -/

namespace Sys2Proof.Machine

/-- A channel of one column, the sample 1 above the sample 2^40, with a command in flight: the mean of the two absorbs the
smaller one. -/
def smallAboveLarge : State :=
  { State.reset with
    status := { Status.reset with busy := true }
    imgDim := ⟨1, 2⟩
    chan := { Banks.empty with y := [(0, .known 0x3F800000), (1, .known 0x53800000)] } }

/-- Y of `smallAboveLarge` after a completed DWT. -/
def smallAboveLargeTransformed : State := finishCommand (effectOf (.dwt .y false) smallAboveLarge)

/-- IDWT accepted after that DWT. -/
def smallAboveLargeReturning : State := latched (encode (.idwt .y false)) smallAboveLargeTransformed

theorem smallAboveLarge_finite :
    ∀ i < 2, ∃ neg v, fp32 (smallAboveLarge.elem32 (.chan .y) i) = .fin neg v ∧ v < 2 ^ 270 := by
  have hsmall : fp32 (smallAboveLarge.elem32 (.chan .y) 0) = .fin false (2 ^ 149) := by decide +kernel
  have hlarge : fp32 (smallAboveLarge.elem32 (.chan .y) 1) = .fin false (2 ^ 189) := by decide +kernel
  intro i hi
  obtain rfl | rfl : i = 0 ∨ i = 1 := by omega
  · exact ⟨false, _, hsmall, pow_lt_pow_right₀ one_lt_two (by norm_num)⟩
  · exact ⟨false, _, hlarge, pow_lt_pow_right₀ one_lt_two (by norm_num)⟩

theorem smallAboveLarge_before : ratOfF64 (f64OfF32 (smallAboveLarge.elem32 (.chan .y) 0)) = 1 := by decide +kernel

/-- The round trip brings the sample 1 back as 0. -/
theorem smallAboveLarge_after :
    ratOfF64 (f64OfF32 ((finishCommand (effectOf (.idwt .y false) smallAboveLargeReturning)).elem32 (.chan .y) 0)) = 0 := by
  decide +kernel

/-- Refutes O38: next to 2^40 the sample 1 comes back as 0. -/
theorem not_waveletRoundTripWithinTolerance : ¬ Obligations.WaveletRoundTripWithinTolerance := by
  intro h
  have htolerance := h .y false smallAboveLarge smallAboveLargeTransformed
    (finishCommand (effectOf (.idwt .y false) smallAboveLargeReturning)) rfl (by decide) (fun hm => absurd hm (by decide))
    smallAboveLarge_finite (exec_of_busy (.dwt .y false) rfl) (exec_of_busy (.idwt .y false) rfl) 0 (by decide)
  simp only [smallAboveLarge_before, smallAboveLarge_after] at htolerance
  norm_num at htolerance

end Sys2Proof.Machine
end

section
/-! SUPPORT. The basis tensor and the completions of DCTINIT, DCT and IDCT (43_dct.md R192 to R197): the tensor by its four
indices, the coefficients and samples, their frames, and the zero block (statements O18, O19, O20 and O35). -/

namespace Sys2Proof.Machine

/-! ### The tensor's layout -/

/-- The entry at the index of (i, j, x, y) is the product for these four (R192). -/
theorem tensorEntry_tensorIndex (rom : BasisRom) {bw bh j x y : Nat} (i : Nat) (hj : j < bw) (hx : x < bh) (hy : y < bw) :
    tensorEntry rom bw bh (tensorIndex bw bh i j x y) = tensorValue rom bw bh i j x y := by
  obtain ⟨hymod, hydiv⟩ := cell_coordinates hy ((i * bw + j) * bh + x)
  obtain ⟨hxmod, hxdiv⟩ := cell_coordinates hx (i * bw + j)
  obtain ⟨hjmod, hjdiv⟩ := cell_coordinates hj i
  simp only [tensorEntry, tensorIndex, ← Nat.div_div_eq_div_mul, hymod, hydiv, hxmod, hxdiv, hjmod, hjdiv]

theorem tensorIndex_lt {bw bh i j x y : Nat} (hi : i < bh) (hj : j < bw) (hx : x < bh) (hy : y < bw) :
    tensorIndex bw bh i j x y < (bw * bh) ^ 2 :=
  calc tensorIndex bw bh i j x y < bh * bw * bh * bw := mul_add_lt_mul (mul_add_lt_mul (mul_add_lt_mul hi hj) hx) hy
    _ = (bw * bh) ^ 2 := by ring

/-! ### The rebuild of the slot -/

/-- What `BuildPhi` leaves at the index of (i, j, x, y). -/
theorem buildPhi_elem_tensorIndex {s : State} {i j x y : Nat} (hi : i < s.bh) (hj : j < s.bw) (hx : x < s.bh) (hy : y < s.bw) :
    (buildPhi s).elem .phi (tensorIndex s.bw s.bh i j x y) = tensorValue s.basis s.bw s.bh i j x y := by
  have hlt : tensorIndex s.bw s.bh i j x y < s.area * s.area := (tensorIndex_lt hi hj hx hy).trans_eq (sq _)
  rw [buildPhi_elem, s.elem_writeFrom_zero .phi hlt, packElem_phi, tensorEntry_tensorIndex s.basis i hj hx hy]

/-- `BuildPhi` replaces PHI and its tag and sets PHI_VALID. -/
theorem buildPhi_frame (s : State) :
    buildPhi s =
      { s with phi := (buildPhi s).phi, phiShape := (buildPhi s).phiShape, status := { s.status with phiValid := true } } :=
  rfl

theorem State.phiOk_iff (s : State) :
    s.phiOk = true ↔ s.status.phiValid = true ∧ s.phiShape.w.toNat = s.bw ∧ s.phiShape.h.toNat = s.bh := by
  simp [State.phiOk, and_assoc]

/-- The rebuild on demand changes at most the slot, and leaves it valid (R194). -/
theorem ensurePhi_frame (s : State) :
    ensurePhi s =
      { s with phi := (ensurePhi s).phi, phiShape := (ensurePhi s).phiShape, status := { s.status with phiValid := true } } := by
  rcases ensurePhi_cases s with ⟨hok, he⟩ | ⟨-, he⟩
  · obtain ⟨hvalid, -⟩ := s.phiOk_iff.mp hok
    rw [he, ← hvalid]
  · rw [he]
    exact buildPhi_frame s

/-- The slot's tag after the rebuild on demand is the block shape. -/
theorem ensurePhi_phiShape (s : State) : (ensurePhi s).phiShape.w.toNat = s.bw ∧ (ensurePhi s).phiShape.h.toNat = s.bh := by
  rcases ensurePhi_cases s with ⟨hok, he⟩ | ⟨-, he⟩
  · obtain ⟨-, hshape⟩ := s.phiOk_iff.mp hok
    rwa [he]
  · rw [he]
    exact buildPhi_phiShape s

theorem ensurePhi_bw (s : State) : (ensurePhi s).bw = s.bw := by rw [State.bw, (sameOutside_ensurePhi s).blkReq, State.bw]

theorem ensurePhi_bh (s : State) : (ensurePhi s).bh = s.bh := by rw [State.bh, (sameOutside_ensurePhi s).blkReq, State.bh]

/-! ### DCTINIT -/

/-- Settles O18, from the tensor `BuildPhi` leaves, its tag and its frame. -/
theorem dctinitBuildsTensor : Obligations.DctinitBuildsTensor := by
  intro s hbusy
  obtain ⟨hw, hh⟩ := buildPhi_phiShape s
  refine ⟨_, exec_of_busy .dctinit hbusy, fun i hi j hj x hx y hy => ?_, fun b n h => ?_, hw, hh, ?_⟩
  · exact (elem_finishCommand _ _ _).trans (buildPhi_elem_tensorIndex hi hj hx hy)
  · exact elem_completed_outside (i := .dctinit) (n := (s.bw * s.bh) ^ 2) (bufs := [.phi]) (by simp)
      (by simp [writeSet, State.area, sq]) (h.imp_right (by simp))
  · exact congrArg finishCommand (buildPhi_frame s)

/-! ### DCT -/

theorem packElem_coef (v : Word64) : packElem .coef v = v := by simp [packElem, elemBits]

/-- The slice DCT transforms is the one before the rebuild on demand. -/
theorem blockSample_ensurePhi (s : State) (ch : Channel) (k n : Nat) :
    blockSample (ensurePhi s) ch k n = blockSample s ch k n := by
  have helem (i : Nat) : (ensurePhi s).elem (.sba ch) i = s.elem (.sba ch) i := by
    refine ensurePhi_elem_outside fun p hp hb => absurd hb ?_
    split_ifs at hp <;> simp_all
  simp only [blockSample, State.elem32, helem, area_ensurePhi]

/-- The coefficients a completed DCT leaves, over the tensor it leaves in PHI. -/
theorem completedDct_coef (ch : Channel) (k : Nat) {s : State} {i j : Nat} (hi : i < s.bh) (hj : j < s.bw) :
    (finishCommand (effectOf (.dct ch k) s)).elem .coef (i * s.bw + j) =
      accumulate s.bh (fun x acc => accumulate s.bw (fun y acc =>
        add64 acc (mul64 ((finishCommand (effectOf (.dct ch k) s)).elem .phi (tensorIndex s.bw s.bh i j x y))
          (blockSample s ch k (x * s.bw + y)))) acc) 0 := by
  have hphi (n : Nat) : (finishCommand (effectOf (.dct ch k) s)).elem .phi n = (ensurePhi s).elem .phi n :=
    (elem_finishCommand _ _ _).trans (effectDct_elem ch k s (by decide) n)
  have hcell : i * s.bw + j < (ensurePhi s).area := by
    rw [area_ensurePhi]
    exact (mul_add_lt_mul hi hj).trans_eq (Nat.mul_comm _ _)
  obtain ⟨hmod, hdiv⟩ := cell_coordinates hj i
  have hcoef : (finishCommand (effectOf (.dct ch k) s)).elem .coef (i * s.bw + j) = dctCoef (ensurePhi s) ch k i j := by
    calc (finishCommand (effectOf (.dct ch k) s)).elem .coef (i * s.bw + j)
        = (effectDct ch k s).elem .coef (i * s.bw + j) := elem_finishCommand _ _ _
      _ = _ := State.elem_withRegisters _ _ _ _ _ _
      _ = dctCoef (ensurePhi s) ch k i j := by
        rw [State.elem_writeFrom_zero _ _ hcell, packElem_coef, ensurePhi_bw, hmod, hdiv]
  rw [hcoef]
  simp only [hphi, dctCoef, phiAt, ensurePhi_bw, ensurePhi_bh, blockSample_ensurePhi]

/-- DCT changes COEF, DCTCTX, DCT_VALID and what the rebuild on demand does. -/
theorem effectDct_frame (ch : Channel) (k : Nat) (s : State) :
    effectDct ch k s =
      { ensurePhi s with
        coef := (effectDct ch k s).coef
        dctCtx := { ch := ch, k := BitVec.ofNat 24 k }
        status := { (ensurePhi s).status with dctValid := true } } := rfl

/-- Settles O19, from the coefficients, the rebuild on demand and the frames of both. -/
theorem dctWritesCoefficients : Obligations.DctWritesCoefficients := by
  intro ch k s hk hbusy
  obtain ⟨hw, hh⟩ := ensurePhi_phiShape s
  refine ⟨_, exec_of_busy (.dct ch k) hbusy, fun i hi j hj => completedDct_coef ch k hi hj, fun hok => ?_,
    fun hstale i hi j hj x hx y hy => ?_, hw, hh, fun b n hcoef hphi => ?_, rfl, ?_, ?_⟩
  · have he : ensurePhi s = s := if_pos hok
    exact ⟨(congrArg State.phi he :), (congrArg State.phiShape he :)⟩
  · have he : ensurePhi s = buildPhi s := if_neg (by simp [hstale])
    refine ((elem_finishCommand _ _ _).trans (effectDct_elem ch k s (by decide) _)).trans ?_
    rw [he]
    exact buildPhi_elem_tensorIndex hi hj hx hy
  · refine (elem_finishCommand _ b n).trans (effectDct_elem_outside ch k (outsideSpans_cons.mpr ⟨?_, ?_⟩))
    · exact fun hb => .inr ((Nat.zero_add _).trans_le (hcoef hb.symm))
    · intro p hp hb
      split_ifs at hp
      · simp at hp
      · obtain rfl : p = ⟨.phi, 0, s.area * s.area⟩ := by simpa using hp
        exact .inr (by simpa [State.area, sq] using hphi hb.symm)
  · exact (BitVec.toNat_ofNat k 24).trans (Nat.mod_eq_of_lt hk)
  · have he := effectDct_frame ch k s
    rw [ensurePhi_frame s] at he
    exact congrArg finishCommand he

/-! ### IDCT -/

/-- A run of binary32 values written to a 32-bit buffer reads back. -/
theorem State.elem32_writeFrom32_add (s : State) {b : Buf} (hb : elemBits b = 32) (base : Nat) {n i : Nat} (hi : i < n)
    (val : Nat → Word32) : (s.writeFrom32 b base n val).elem32 b (base + i) = val i := by
  rw [State.elem32, State.writeFrom32, s.elem_writeFrom, if_pos ⟨Nat.le_add_right _ _, by omega⟩, Nat.add_sub_cancel_left,
    setWidth_packElem32 hb]

/-- Settles O20, from the samples of the slice and the write set. -/
theorem idctWritesBoundBlock : Obligations.IdctWritesBoundBlock := by
  intro s hbusy
  refine ⟨_, exec_of_busy .idct hbusy, fun x hx y hy => ?_, fun b n h => ?_, ?_⟩
  · obtain ⟨hmod, hdiv⟩ := cell_coordinates hy x
    have hcell : x * s.bw + y < s.area := (mul_add_lt_mul hx hy).trans_eq (Nat.mul_comm _ _)
    have hsample : (effectIdct s).elem32 (.sba s.dctCtx.ch) (s.dctCtx.k.toNat * s.area + (x * s.bw + y)) =
        f32OfF64 (idctSample s x y) := by
      rw [effectIdct, s.elem32_writeFrom32_add rfl _ hcell, hmod, hdiv]
    exact (elem32_finishCommand _ _ _).trans hsample
  · refine (elem_finishCommand _ b n).trans (effectOf_elem_outside (i := .idct) (by simp [MapReady]) ?_)
    exact outsideSpans_cons.mpr ⟨fun hb => h hb.symm, by simp [OutsideSpans]⟩
  · have he : effectOf .idct s = { s with sba := (effectOf .idct s).sba } := rfl
    exact congrArg finishCommand he

/-! ### The zero block -/

/-- A sum whose every step keeps the start value is the start value. -/
theorem accumulate_of_fixed {α : Type} {n : Nat} {f : Nat → α → α} {a : α} (h : ∀ k < n, f k a = a) : accumulate n f a = a := by
  induction n with
  | zero => rfl
  | succ n ih => rw [accumulate, ih fun k hk => h k (Nat.lt_succ_of_lt hk), h n n.lt_succ_self]

theorem roundUnits_zero (F : Format) (den : Nat) : roundUnits F 0 den = 0 := by
  simp [roundUnits, roundHalfEven, Nat.log2_zero]

/-- A finite value times a zero is a zero (R197). -/
theorem fp64_mul64_zero {a b : Word64} {s t : Bool} {m : Nat} (ha : fp64 a = .fin s m) (hb : fp64 b = .fin t 0) :
    fp64 (mul64 a b) = .fin (s != t) 0 := by
  have hmul : mul64 a b = BitVec.ofNat 64 (packRound binary64 (s != t) (m * 0) (2 ^ binary64.unitExp)) := by
    rw [mul64, ha, hb]
    rfl
  rw [hmul, packRound, Nat.mul_zero, roundUnits_zero, fp64_ofNat (packSign_lt _ _ (Nat.zero_le _)), unpackFp_packSign _ _ (infBits_pos (by simp))]
  rfl

/-- `+0` and a zero of either sign add to `+0` (R197). -/
theorem add64_zero {b : Word64} {t : Bool} (hb : fp64 b = .fin t 0) : add64 0 b = 0 := by
  have hzero : fp64 0 = .fin false 0 := by decide +kernel
  rw [add64, hzero, hb]
  cases t with
  | false => simp [addFp, packRound, packSign, roundUnits_zero, result64]
  | true => rfl

/-- A zero sample, of either sign, adds `+0` to a coefficient, whatever finite value the tensor has there. -/
theorem add64_mul64_zeroSample {p : Word64} {v : Word32} {neg : Bool} (hp : finite64 p = true) (hv : fp32 v = .fin neg 0) :
    add64 0 (mul64 p (f64OfF32 v)) = 0 := by
  obtain ⟨s, m, hfin⟩ : ∃ s m, fp64 p = .fin s m := by
    unfold finite64 at hp
    split at hp
    · exact ⟨_, _, ‹_›⟩
    · contradiction
  have hwide : fp64 (f64OfF32 v) = .fin neg 0 := by rw [fp64_f64OfF32_of_fin hv, Nat.zero_mul]
  exact add64_zero (fp64_mul64_zero hfin hwide)

/-- Settles O35: every term of every coefficient's sum is a zero. -/
theorem zeroBlockGivesZeroCoefficients : Obligations.ZeroBlockGivesZeroCoefficients := by
  intro ch k s t hbusy ht hzero hfinite n hn
  obtain rfl := Host.Outcome.next.inj ((exec_of_busy (.dct ch k) hbusy).symm.trans ht)
  have hi : n / s.bw < s.bh := Nat.div_lt_of_lt_mul hn
  have hj : n % s.bw < s.bw := Nat.mod_lt n s.bw_pos
  have hcoef := completedDct_coef ch k hi hj
  rw [Nat.div_add_mod'] at hcoef
  rw [hcoef]
  refine accumulate_of_fixed fun x hx => accumulate_of_fixed fun y hy => ?_
  obtain ⟨neg, hv⟩ := hzero (x * s.bw + y) ((mul_add_lt_mul hx hy).trans_eq (Nat.mul_comm _ _))
  exact add64_mul64_zeroSample (hfinite _ (tensorIndex_lt hi hj hx hy)) hv

end Sys2Proof.Machine
end

section
/-! SUPPORT. The default basis (00_scope.md R6, 43_dct.md R190) against the real DCT-II basis: the fixed-point square root and
cosine, the fold of the argument into the first quadrant, and the one rounding to binary64 (statement O36). -/

namespace Sys2Proof.Machine

/-- The number `m` of 2^-192, as a real. -/
noncomputable def fixedReal (m : Nat) : ℝ := m / basisOne

theorem basisOne_pos : (0 : ℝ) < basisOne := by
  rw [basisOne]
  positivity

theorem fixedReal_one : fixedReal basisOne = 1 := div_self basisOne_pos.ne'

theorem fixedReal_nonneg (m : Nat) : 0 ≤ fixedReal m := div_nonneg m.cast_nonneg basisOne_pos.le

theorem fixedReal_mono {m n : Nat} (h : m ≤ n) : fixedReal m ≤ fixedReal n :=
  div_le_div_of_nonneg_right (Nat.cast_le.mpr h) basisOne_pos.le

theorem fixedReal_le_one {m : Nat} : fixedReal m ≤ 1 ↔ m ≤ basisOne := by
  rw [fixedReal, div_le_one basisOne_pos, Nat.cast_le]

/-- A quotient is cut to 2^-192, downwards. -/
theorem fixedReal_div_le (m n : Nat) : fixedReal (m / n) ≤ fixedReal m / n := by
  rw [fixedReal, fixedReal, div_right_comm]
  exact div_le_div_of_nonneg_right Nat.cast_div_le basisOne_pos.le

theorem fixedReal_div_near (m : Nat) {n : Nat} (hn : 0 < n) : |fixedReal (m / n) - fixedReal m / n| ≤ 1 / basisOne := by
  have hquot : (m : ℝ) / n ≤ (m / n : Nat) + 1 := by
    rw [div_le_iff₀ (Nat.cast_pos.mpr hn), mul_comm]
    exact_mod_cast (Nat.lt_mul_div_succ m hn).le
  rw [abs_sub_comm, abs_of_nonneg (sub_nonneg.mpr (fixedReal_div_le m n)), fixedReal, fixedReal, div_right_comm, ← sub_div]
  exact div_le_div_of_nonneg_right (sub_le_iff_le_add'.mpr hquot) basisOne_pos.le

/-- The product of two fixed-point numbers, before it is cut. -/
theorem fixedReal_mul (m n : Nat) : fixedReal (m * n) / basisOne = fixedReal m * fixedReal n := by
  simp only [fixedReal, Nat.cast_mul]
  ring

theorem fixedReal_product_le (m n : Nat) : fixedReal (m * n / basisOne) ≤ fixedReal m * fixedReal n :=
  (fixedReal_div_le _ _).trans_eq (fixedReal_mul m n)

theorem fixedReal_product_near (m n : Nat) : |fixedReal (m * n / basisOne) - fixedReal m * fixedReal n| ≤ 1 / basisOne := by
  rw [← fixedReal_mul]
  exact fixedReal_div_near _ (by norm_num [basisOne])

/-- The error of a product, from those of its factors. -/
theorem abs_mul_sub_mul_le {r r' c c' e f B : ℝ} (hc : |c| ≤ 1) (hB : |r'| ≤ B) (hr : |r - r'| ≤ f)
    (hcc : |c - c'| ≤ e) :
    |r * c - r' * c'| ≤ f + B * e :=
  calc |r * c - r' * c'| = |(r - r') * c + r' * (c - c')| := by congr 1; ring
    _ ≤ |r - r'| * |c| + |r'| * |c - c'| := by simpa only [abs_mul] using abs_add_le ((r - r') * c) (r' * (c - c'))
    _ ≤ f * 1 + B * e :=
      add_le_add (mul_le_mul hr hc (abs_nonneg _) ((abs_nonneg _).trans hr))
        (mul_le_mul hB hcc (abs_nonneg _) ((abs_nonneg _).trans hB))
    _ = f + B * e := by rw [mul_one]

/-! ### The square root -/

/-- Each Newton step from above halves the distance to the integer square root at least, so enough fuel reaches it. -/
theorem sqrtFrom_eq_sqrt {n fuel x : Nat} (hle : n.sqrt ≤ x) (hfuel : x < n.sqrt + 2 ^ fuel) :
    sqrtFrom n fuel x = n.sqrt := by
  induction fuel generalizing x with
  | zero =>
    have hx : x = n.sqrt := by omega
    exact hx
  | succ fuel ih =>
    simp only [sqrtFrom]
    split
    · next hlt =>
      have hlow : n.sqrt ≤ (x + n / x) / 2 :=
        Nat.lt_succ_iff.mp (Nat.sqrt_lt'.mpr (newton_step_above n (Nat.zero_lt_of_lt hlt)))
      have hquot : n / x ≤ n.sqrt := by
        refine Nat.lt_succ_iff.mp (Nat.div_lt_of_lt_mul ((Nat.lt_succ_sqrt n).trans_le ?_))
        exact Nat.mul_le_mul_right _ (hlow.trans_lt hlt)
      rw [pow_succ] at hfuel
      exact ih hlow (by omega)
    · next hstop => exact (Nat.le_sqrt'.mpr (newton_stop_below (not_lt.mp hstop))).antisymm hle

theorem basisSqrt_eq_sqrt {num den : Nat} (h : num ≤ 4 * den) :
    basisSqrt num den = Nat.sqrt (num * basisOne ^ 2 / den) := by
  refine sqrtFrom_eq_sqrt ?_ ?_
  · have hquot : num * basisOne ^ 2 / den ≤ (2 * basisOne) * (2 * basisOne) :=
      Nat.div_le_of_le_mul ((Nat.mul_le_mul_right _ h).trans_eq (by ring))
    exact (Nat.sqrt_le_sqrt hquot).trans_eq (Nat.sqrt_eq _)
  · have : 2 * basisOne < 2 ^ 256 := by norm_num [basisOne]
    omega

/-- The fixed-point square root is the real one, cut to 2^-192. -/
theorem basisSqrt_near {num den : Nat} (hden : 0 < den) (h : num ≤ 4 * den) :
    fixedReal (basisSqrt num den) ≤ √(num / den) ∧ √(num / den) ≤ fixedReal (basisSqrt num den) + 1 / basisOne := by
  have hone := basisOne_pos
  have hden' : (0 : ℝ) < den := Nat.cast_pos.mpr hden
  rw [basisSqrt_eq_sqrt h, fixedReal, ← add_div]
  generalize hN : num * basisOne ^ 2 / den = N
  have hlow : N.sqrt ^ 2 * den ≤ num * basisOne ^ 2 := by
    rw [← Nat.le_div_iff_mul_le hden, hN]
    exact N.sqrt_le'
  have hhigh : num * basisOne ^ 2 < (N.sqrt + 1) ^ 2 * den := by
    rw [← Nat.div_lt_iff_lt_mul hden, hN]
    exact N.lt_succ_sqrt'
  constructor
  · refine Real.le_sqrt_of_sq_le ?_
    rw [div_pow, div_le_div_iff₀ (by positivity) hden']
    exact_mod_cast hlow
  · refine Real.sqrt_le_iff.mpr ⟨by positivity, ?_⟩
    rw [div_pow, div_le_div_iff₀ hden' (by positivity)]
    exact_mod_cast hhigh.le

/-! ### The cosine -/

/-- Subtraction from 1.0 stops at 0. -/
theorem fixedReal_one_sub (m : Nat) : fixedReal (basisOne - m) = max (1 - fixedReal m) 0 := by
  rcases le_total m basisOne with h | h
  · have hcast : fixedReal (basisOne - m) = 1 - fixedReal m := by
      rw [fixedReal, Nat.cast_sub h, sub_div, div_self basisOne_pos.ne', fixedReal]
    rw [hcast, max_eq_left (by rw [← hcast]; exact fixedReal_nonneg _)]
  · have hle : 1 ≤ fixedReal m := fixedReal_one.symm.trans_le (fixedReal_mono h)
    rw [Nat.sub_eq_zero_of_le h, max_eq_right (by linarith), fixedReal, Nat.cast_zero, zero_div]

/-- Stopping at 0 brings a difference no further from a non-negative number. -/
theorem fixedReal_one_sub_near {m : Nat} {x y e : ℝ} (hm : |fixedReal m - x| ≤ e) (hy : 0 ≤ y) :
    |fixedReal (basisOne - m) - y| ≤ e + |1 - x - y| := by
  rw [fixedReal_one_sub]
  calc |max (1 - fixedReal m) 0 - y| = |max (1 - fixedReal m) 0 - max y 0| := by rw [max_eq_left hy]
    _ ≤ |1 - fixedReal m - y| := abs_max_sub_max_le_abs _ _ _
    _ = |(x - fixedReal m) + (1 - x - y)| := by congr 1; ring
    _ ≤ |x - fixedReal m| + |1 - x - y| := abs_add_le _ _
    _ ≤ e + |1 - x - y| := by rw [abs_sub_comm]; gcongr

/-- The divisor of the term after the `k`th of the cosine's series over that term. -/
def cosDivisor (k : Nat) : Nat := (2 * k + 1) * (2 * k + 2)

theorem two_le_cosDivisor (k : Nat) : 2 ≤ cosDivisor k := by
  unfold cosDivisor
  nlinarith

theorem twelve_le_cosDivisor (k : Nat) : 12 ≤ cosDivisor (k + 1) := by
  unfold cosDivisor
  nlinarith

/-- The real number `cosTail` approximates, from the square of the angle. -/
noncomputable def cosTailReal (u : ℝ) : Nat → Nat → ℝ
  | 0, _ => 1
  | n + 1, k => 1 - u * cosTailReal u n (k + 1) / cosDivisor k

theorem cosTail_le_one (t n k : Nat) : cosTail t n k ≤ basisOne := by
  cases n with
  | zero => exact le_rfl
  | succ n => exact Nat.sub_le _ _

section

variable {a : Nat} (ha : fixedReal a ^ 2 ≤ 5 / 2)

include ha

/-- From the second term on the real tails stay within 0 and 1. -/
theorem cosTailReal_mem (n k : Nat) : cosTailReal (fixedReal a ^ 2) n (k + 1) ∈ Set.Icc (0 : ℝ) 1 := by
  have hsq := sq_nonneg (fixedReal a)
  induction n generalizing k with
  | zero => simp [cosTailReal]
  | succ n ih =>
    obtain ⟨h0, h1⟩ := ih (k + 1)
    have hm : (12 : ℝ) ≤ cosDivisor (k + 1) := by exact_mod_cast twelve_le_cosDivisor k
    have hterm : fixedReal a ^ 2 * cosTailReal (fixedReal a ^ 2) n (k + 1 + 1) ≤ cosDivisor (k + 1) :=
      (mul_le_mul ha h1 h0 (by norm_num)).trans (by linarith)
    rw [cosTailReal, Set.mem_Icc, sub_nonneg, sub_le_self_iff]
    exact ⟨div_le_one_of_le₀ hterm (by linarith), div_nonneg (mul_nonneg hsq h0) (by linarith)⟩

/-- One term of the series: the square of the angle, the quotient and the rest are each cut to 2^-192. -/
theorem cosStep_near {c m : Nat} {y : ℝ} (hm : 2 ≤ m) (hc : c ≤ basisOne) (hy : |fixedReal c - y| ≤ 3 / basisOne) :
    |fixedReal (a * a / basisOne * c / (basisOne * m)) - fixedReal a ^ 2 * y / m| ≤ (17 / 2 / m + 1) / basisOne := by
  have hm' : (0 : ℝ) < m := Nat.cast_pos.mpr (by omega)
  have hquotient : fixedReal (a * a / basisOne * c) / (basisOne * m : Nat) =
      fixedReal (a * a / basisOne) * fixedReal c / m := by
    rw [← fixedReal_mul, Nat.cast_mul, div_div]
  have hfloor := fixedReal_div_near (a * a / basisOne * c) (Nat.mul_pos (by norm_num [basisOne]) (by omega) : 0 < basisOne * m)
  rw [hquotient] at hfloor
  have hsquare : |fixedReal (a * a / basisOne) - fixedReal a ^ 2| ≤ 1 / basisOne := by
    rw [sq]
    exact fixedReal_product_near a a
  have hc1 : |fixedReal c| ≤ 1 := by rwa [abs_of_nonneg (fixedReal_nonneg c), fixedReal_le_one]
  have hangle : |fixedReal a ^ 2| ≤ 5 / 2 := (abs_of_nonneg (sq_nonneg _)).trans_le ha
  have hproduct := abs_mul_sub_mul_le hc1 hangle hsquare hy
  calc |fixedReal (a * a / basisOne * c / (basisOne * m)) - fixedReal a ^ 2 * y / m|
      ≤ 1 / basisOne + |fixedReal (a * a / basisOne) * fixedReal c / m - fixedReal a ^ 2 * y / m| :=
        (abs_sub_le _ _ _).trans (add_le_add_left hfloor _)
    _ ≤ 1 / basisOne + (1 / basisOne + 5 / 2 * (3 / basisOne)) / m := by
        rw [← sub_div, abs_div, Nat.abs_cast]
        gcongr
    _ = (17 / 2 / m + 1) / basisOne := by ring

/-- From the second term on the error of the tails does not grow. -/
theorem cosTail_near (n k : Nat) :
    |fixedReal (cosTail (a * a / basisOne) n (k + 1)) - cosTailReal (fixedReal a ^ 2) n (k + 1)| ≤ 3 / basisOne := by
  have hone := basisOne_pos
  induction n generalizing k with
  | zero =>
    rw [cosTail, cosTailReal, fixedReal_one, sub_self, abs_zero]
    positivity
  | succ n ih =>
    obtain ⟨h0, -⟩ := cosTailReal_mem ha (n + 1) k
    have hm : (12 : ℝ) ≤ cosDivisor (k + 1) := by exact_mod_cast twelve_le_cosDivisor k
    have hterm := cosStep_near ha (two_le_cosDivisor (k + 1)) (cosTail_le_one _ n (k + 1 + 1)) (ih (k + 1))
    refine (fixedReal_one_sub_near hterm h0).trans ?_
    rw [cosTailReal, sub_self, abs_zero, add_zero]
    refine div_le_div_of_nonneg_right ?_ hone.le
    have : 17 / 2 / (cosDivisor (k + 1) : ℝ) ≤ 17 / 2 / 12 := div_le_div_of_nonneg_left (by norm_num) (by norm_num) hm
    linarith

/-- The whole series, against a non-negative number the real one is near to. -/
theorem cosTail_zero_near (n : Nat) {y : ℝ} (hy : 0 ≤ y) :
    |fixedReal (cosTail (a * a / basisOne) (n + 1) 0) - y| ≤
      21 / 4 / basisOne + |cosTailReal (fixedReal a ^ 2) (n + 1) 0 - y| := by
  have hterm := cosStep_near ha (two_le_cosDivisor 0) (cosTail_le_one _ n (0 + 1)) (cosTail_near ha n 0)
  refine (fixedReal_one_sub_near hterm hy).trans_eq ?_
  rw [cosTailReal]
  norm_num [cosDivisor]

end

/-- The `k`th term of the cosine's series, without its sign. -/
noncomputable def cosTerm (x : ℝ) (k : Nat) : ℝ := x ^ (2 * k) / (2 * k).factorial

/-- The partial sums of the cosine's series. -/
noncomputable def cosSum (x : ℝ) (n : Nat) : ℝ := ∑ i ∈ Finset.range n, (-1) ^ i * cosTerm x i

theorem cosTerm_succ (x : ℝ) (k : Nat) : cosTerm x (k + 1) = x ^ 2 / cosDivisor k * cosTerm x k := by
  rw [cosTerm, cosTerm, cosDivisor, show 2 * (k + 1) = 2 * k + 1 + 1 by ring, Nat.factorial_succ, Nat.factorial_succ]
  push_cast
  field_simp
  ring

/-- `cosTailReal` is a run of the series over its first term. -/
theorem cosTailReal_mul_cosTerm (x : ℝ) (n k : Nat) :
    cosTailReal (x ^ 2) n k * cosTerm x k = ∑ i ∈ Finset.range (n + 1), (-1) ^ i * cosTerm x (k + i) := by
  induction n generalizing k with
  | zero => simp [cosTailReal]
  | succ n ih =>
    calc cosTailReal (x ^ 2) (n + 1) k * cosTerm x k
        = -(cosTailReal (x ^ 2) n (k + 1) * cosTerm x (k + 1)) + cosTerm x k := by
          rw [cosTailReal, cosTerm_succ]
          ring
      _ = ∑ i ∈ Finset.range (n + 1), (-1) ^ (i + 1) * cosTerm x (k + (i + 1)) + (-1) ^ 0 * cosTerm x (k + 0) := by
          rw [ih, ← Finset.sum_neg_distrib]
          simp [pow_succ, Nat.add_assoc, Nat.add_comm 1]
      _ = _ := (Finset.sum_range_succ' (fun i => (-1) ^ i * cosTerm x (k + i)) (n + 1)).symm

theorem cosTailReal_zero (x : ℝ) (n : Nat) : cosTailReal (x ^ 2) n 0 = cosSum x (n + 1) := by
  simpa [cosSum, cosTerm] using cosTailReal_mul_cosTerm x n 0

/-- The even terms of the exponential series of an imaginary number. -/
theorem re_expSum (x : ℝ) (n : Nat) :
    (∑ i ∈ Finset.range (2 * n), ((x : ℂ) * Complex.I) ^ i / i.factorial).re = cosSum x n := by
  induction n with
  | zero => simp [cosSum]
  | succ n ih =>
    have heven : (((x : ℂ) * Complex.I) ^ (2 * n) / (2 * n).factorial).re = (-1) ^ n * cosTerm x n := by
      have : ((x : ℂ) * Complex.I) ^ (2 * n) / (2 * n).factorial = (((-1) ^ n * cosTerm x n : ℝ) : ℂ) := by
        rw [mul_pow, pow_mul Complex.I, Complex.I_sq, cosTerm]
        push_cast
        ring
      rw [this, Complex.ofReal_re]
    have hodd : (((x : ℂ) * Complex.I) ^ (2 * n + 1) / (2 * n + 1).factorial).re = 0 := by
      have : ((x : ℂ) * Complex.I) ^ (2 * n + 1) / (2 * n + 1).factorial =
          (((-1) ^ n * x ^ (2 * n + 1) / (2 * n + 1).factorial : ℝ) : ℂ) * Complex.I := by
        rw [mul_pow, pow_succ Complex.I, pow_mul Complex.I, Complex.I_sq]
        push_cast
        ring
      rw [this, Complex.re_ofReal_mul, Complex.I_re, mul_zero]
    rw [show 2 * (n + 1) = 2 * n + 1 + 1 by ring, Finset.sum_range_succ, Finset.sum_range_succ, Complex.add_re, Complex.add_re,
      ih, heven, hodd, add_zero, cosSum, cosSum, Finset.sum_range_succ]

/-- Twenty-nine terms of the series give the cosine to 2^-192, up to 1.6. -/
theorem cosSum_near {x : ℝ} (hx : |x| ≤ 8 / 5) : |cosSum x 29 - Real.cos x| ≤ 1 / basisOne := by
  have hnorm : ‖(x : ℂ) * Complex.I‖ = |x| := by simp
  have hexp := Complex.exp_bound' (x := x * Complex.I) (n := 2 * 29) (by
    rw [hnorm]
    exact (div_le_div_of_nonneg_right hx (by positivity)).trans (by norm_num))
  calc |cosSum x 29 - Real.cos x| = |(Complex.exp (x * Complex.I) -
        ∑ i ∈ Finset.range (2 * 29), ((x : ℂ) * Complex.I) ^ i / i.factorial).re| := by
        rw [Complex.sub_re, re_expSum, Complex.exp_ofReal_mul_I_re, abs_sub_comm]
    _ ≤ _ := Complex.abs_re_le_norm _
    _ ≤ _ := hexp
    _ ≤ (8 / 5) ^ (2 * 29) / (2 * 29).factorial * 2 := by
        rw [hnorm]
        gcongr
    _ ≤ 1 / basisOne := by norm_num [Nat.factorial, basisOne]

/-! ### The angle and the fold into the first quadrant -/

theorem basisPi_near : |fixedReal basisPi - Real.pi| ≤ 1 / 10 ^ 20 := by
  have hlow := Real.pi_gt_d20
  have hhigh := Real.pi_lt_d20
  rw [fixedReal, basisPi, basisOne, abs_le]
  constructor <;> norm_num at * <;> linarith

/-- The angle j*pi/(2d) of the first quadrant, cut to 2^-192. -/
theorem basisAngle_near {d j : Nat} (hd : 0 < d) (hj : j ≤ d) :
    |fixedReal (j * basisPi / (2 * d)) - j * Real.pi / (2 * d)| ≤ 1 / 10 ^ 20 ∧
      fixedReal (j * basisPi / (2 * d)) ≤ 63 / 40 := by
  have hhalf : (j : ℝ) / (2 * d) ≤ 1 / 2 := by
    have : (j : ℝ) ≤ d := Nat.cast_le.mpr hj
    rw [div_le_iff₀ (by positivity)]
    linarith
  have hangle : fixedReal (j * basisPi) / (2 * d : Nat) = j / (2 * d) * fixedReal basisPi := by
    simp only [fixedReal]
    push_cast
    ring
  have hcut := fixedReal_div_near (j * basisPi) (by omega : 0 < 2 * d)
  have hcutle := fixedReal_div_le (j * basisPi) (2 * d)
  rw [hangle] at hcut hcutle
  constructor
  · have hscaled : |j / (2 * d) * fixedReal basisPi - j / (2 * d) * Real.pi| ≤ 1 / 2 * (1 / 10 ^ 20) := by
      rw [← mul_sub, abs_mul, abs_of_nonneg (by positivity)]
      exact mul_le_mul hhalf basisPi_near (abs_nonneg _) (by norm_num)
    rw [mul_div_right_comm]
    refine (abs_sub_le _ _ _).trans ((add_le_add hcut hscaled).trans ?_)
    norm_num [basisOne]
  · calc fixedReal (j * basisPi / (2 * d)) ≤ 1 / 2 * fixedReal basisPi :=
          hcutle.trans (mul_le_mul_of_nonneg_right hhalf (fixedReal_nonneg _))
      _ ≤ 63 / 40 := by norm_num [fixedReal, basisPi, basisOne]

/-- The fixed-point cosine of an angle of the first quadrant. -/
theorem basisCos_near {d j : Nat} (hd : 0 < d) (hj : j ≤ d) :
    |fixedReal (basisCos d j) - Real.cos (j * Real.pi / (2 * d))| ≤ 2 / 10 ^ 20 := by
  have hd' : (0 : ℝ) < d := Nat.cast_pos.mpr hd
  obtain ⟨hangle, hle⟩ := basisAngle_near hd hj
  have hcos : 0 ≤ Real.cos (j * Real.pi / (2 * d)) := by
    have hquadrant : j * Real.pi / (2 * d) ≤ Real.pi / 2 := by
      have hpi := Real.pi_pos
      have : (j : ℝ) ≤ d := Nat.cast_le.mpr hj
      rw [div_le_div_iff₀ (by positivity) two_pos]
      nlinarith
    have hnonneg : 0 ≤ j * Real.pi / (2 * d) := by positivity
    exact Real.cos_nonneg_of_neg_pi_div_two_le_of_le (by linarith [Real.pi_pos]) hquadrant
  rw [basisCos]
  generalize j * basisPi / (2 * d) = a at *
  generalize (j : ℝ) * Real.pi / (2 * d) = x at *
  have ha := fixedReal_nonneg a
  have hsquare : fixedReal a ^ 2 ≤ 5 / 2 := (pow_le_pow_left₀ ha hle 2).trans (by norm_num)
  have hseries := cosSum_near (x := fixedReal a) (by rw [abs_of_nonneg ha]; linarith)
  have hlipschitz := (Real.abs_cos_sub_cos_le (fixedReal a) x).trans hangle
  have hone : 21 / 4 / (basisOne : ℝ) + 1 / basisOne ≤ 1 / 10 ^ 20 := by norm_num [basisOne]
  calc |fixedReal (cosTail (a * a / basisOne) 28 0) - Real.cos x|
      ≤ 21 / 4 / basisOne + |cosSum (fixedReal a) 29 - Real.cos x| := by
        rw [← cosTailReal_zero]
        exact cosTail_zero_near hsquare 27 hcos
    _ ≤ 21 / 4 / basisOne + (1 / basisOne + 1 / 10 ^ 20) := by
        gcongr
        exact (abs_sub_le _ (Real.cos (fixedReal a)) _).trans (add_le_add hseries hlipschitz)
    _ ≤ 2 / 10 ^ 20 := by linarith

/-- The argument N*pi/(2d) of a cosine, as `basisFixed` folds it: N modulo 4d, then about 2d, then about d. -/
theorem cos_fold {d : Nat} (hd : 0 < d) (N : Nat) :
    let turn := N % (4 * d)
    let half := if 2 * d < turn then 4 * d - turn else turn
    let neg := decide (d < half)
    let j := if neg then 2 * d - half else half
    j ≤ d ∧ Real.cos (N * Real.pi / (2 * d)) = signFactor neg * Real.cos (j * Real.pi / (2 * d)) := by
  intro turn half neg j
  have hd' : (d : ℝ) ≠ 0 := Nat.cast_ne_zero.mpr hd.ne'
  have hturnlt : turn < 4 * d := Nat.mod_lt N (by omega)
  have hturn : Real.cos (N * Real.pi / (2 * d)) = Real.cos (turn * Real.pi / (2 * d)) := by
    have hN : (N : ℝ) = 4 * d * (N / (4 * d) : Nat) + turn := by exact_mod_cast (Nat.div_add_mod N (4 * d)).symm
    rw [← Real.cos_add_nat_mul_two_pi (turn * Real.pi / (2 * d)) (N / (4 * d)), hN]
    congr 1
    field_simp
    ring
  have hhalf : half ≤ 2 * d ∧ Real.cos (turn * Real.pi / (2 * d)) = Real.cos (half * Real.pi / (2 * d)) := by
    by_cases h : 2 * d < turn
    · have he : half = 4 * d - turn := if_pos h
      refine ⟨by omega, ?_⟩
      rw [← Real.cos_two_pi_sub, he, Nat.cast_sub hturnlt.le]
      congr 1
      push_cast
      field_simp
      ring
    · have he : half = turn := if_neg h
      exact ⟨by omega, by rw [he]⟩
  obtain ⟨hhalfle, hhalf⟩ := hhalf
  rw [hturn, hhalf]
  by_cases h : d < half
  · have hneg : neg = true := decide_eq_true h
    have he : j = 2 * d - half := if_pos hneg
    refine ⟨by omega, ?_⟩
    rw [hneg, he, Nat.cast_sub hhalfle]
    simp only [signFactor, if_true, Rat.cast_neg, Rat.cast_one, neg_mul, one_mul]
    rw [← Real.cos_pi_sub]
    congr 1
    push_cast
    field_simp
    ring
  · have hneg : neg = false := decide_eq_false h
    have he : j = half := if_neg (by simp [hneg])
    exact ⟨by omega, by simp [hneg, he, signFactor]⟩

/-! ### The fixed-point value -/

/-- The signed fixed-point value of phi_d[i, k]. -/
noncomputable def basisApprox (d i k : Nat) : ℝ := signFactor (basisFixed d i k).1 * fixedReal (basisFixed d i k).2

theorem abs_signFactor_cast (s : Bool) : |((signFactor s : ℚ) : ℝ)| = 1 := by
  cases s <;> simp [signFactor]

/-- For i = 0 the value is the square root alone. -/
theorem basisApprox_zero_near {d : Nat} (hd : 0 < d) (k : Nat) :
    (basisFixed d 0 k).2 ≤ basisOne ∧ |basisApprox d 0 k - basisReal d 0 k| ≤ 1 / basisOne := by
  have hd' : (1 : ℝ) ≤ d := Nat.one_le_cast.mpr hd
  obtain ⟨hlow, hhigh⟩ := basisSqrt_near (num := 1) hd (by omega)
  have hvalue : basisFixed d 0 k = (false, basisSqrt 1 d) := if_pos rfl
  have hreal : basisReal d 0 k = √((1 : Nat) / d) := by
    rw [basisReal, if_pos rfl, Nat.cast_one, Real.sqrt_div zero_le_one, Real.sqrt_one]
  rw [basisApprox, hvalue, hreal]
  constructor
  · rw [← fixedReal_le_one]
    refine hlow.trans (Real.sqrt_le_one.mpr ?_)
    rw [Nat.cast_one]
    exact div_le_one_of_le₀ hd' (by linarith)
  · have hone := one_div_pos.mpr basisOne_pos
    simp only [signFactor, Bool.false_eq_true, if_false, Rat.cast_one, one_mul]
    rw [abs_le]
    constructor <;> linarith

/-- The product of the fixed-point square root and cosine, cut to 2^-192. -/
theorem basisProduct_near {d j : Nat} (hd : 2 ≤ d) (hj : j ≤ d) :
    basisSqrt 2 d * basisCos d j / basisOne ≤ basisOne ∧
      |fixedReal (basisSqrt 2 d * basisCos d j / basisOne) - √(2 / d) * Real.cos (j * Real.pi / (2 * d))| ≤
        3 / 10 ^ 20 := by
  have hd' : (2 : ℝ) ≤ d := by exact_mod_cast hd
  obtain ⟨hlow, hhigh⟩ := basisSqrt_near (num := 2) (by omega : 0 < d) (by omega)
  rw [Nat.cast_ofNat] at hlow hhigh
  have hroot : √(2 / (d : ℝ)) ≤ 1 := Real.sqrt_le_one.mpr (div_le_one_of_le₀ hd' (by linarith))
  have hcos0 := fixedReal_nonneg (basisCos d j)
  have hcos1 : fixedReal (basisCos d j) ≤ 1 := fixedReal_le_one.mpr (cosTail_le_one _ _ _)
  constructor
  · rw [← fixedReal_le_one]
    exact (fixedReal_product_le _ _).trans (mul_le_one₀ (hlow.trans hroot) hcos0 hcos1)
  · have hdiff : |fixedReal (basisSqrt 2 d) - √(2 / (d : ℝ))| ≤ 1 / basisOne := by
      rw [abs_sub_comm, abs_of_nonneg (sub_nonneg.mpr hlow)]
      linarith
    have hroot' : |√(2 / (d : ℝ))| ≤ 1 := (abs_of_nonneg (Real.sqrt_nonneg _)).trans_le hroot
    have hproduct := abs_mul_sub_mul_le ((abs_of_nonneg hcos0).trans_le hcos1) hroot' hdiff
      (basisCos_near (by omega : 0 < d) hj)
    refine (abs_sub_le _ _ _).trans ((add_le_add (fixedReal_product_near _ _) hproduct).trans ?_)
    norm_num [basisOne]

/-- For i >= 1 the value is the folded cosine's. -/
theorem basisApprox_pos_near {d i : Nat} (hd : 2 ≤ d) (hi : i ≠ 0) (k : Nat) :
    (basisFixed d i k).2 ≤ basisOne ∧ |basisApprox d i k - basisReal d i k| ≤ 3 / 10 ^ 20 := by
  have hd' : (d : ℝ) ≠ 0 := by
    have : d ≠ 0 := by omega
    exact_mod_cast this
  obtain ⟨hj, hcos⟩ := cos_fold (by omega : 0 < d) (i * (2 * k + 1))
  have hreal : basisReal d i k = √(2 / d) * Real.cos ((i * (2 * k + 1) : Nat) * Real.pi / (2 * d)) := by
    rw [basisReal, if_neg hi]
    congr 2
    push_cast
    ring
  rw [hreal, hcos, basisApprox, basisFixed, if_neg hi]
  clear hreal hcos
  simp only
  generalize i * (2 * k + 1) % (4 * d) = turn at *
  generalize (if 2 * d < turn then 4 * d - turn else turn) = half at *
  generalize (if decide (d < half) = true then 2 * d - half else half) = j at *
  split
  · next hquarter =>
    have hzero : Real.cos (j * Real.pi / (2 * d)) = 0 := by
      rw [hquarter, ← Real.cos_pi_div_two]
      congr 1
      field_simp
    refine ⟨Nat.zero_le _, ?_⟩
    rw [hzero, fixedReal, Nat.cast_zero, zero_div, mul_zero, mul_zero, mul_zero, sub_zero, abs_zero]
    positivity
  · obtain ⟨hle, hnear⟩ := basisProduct_near hd hj
    refine ⟨hle, ?_⟩
    rw [mul_left_comm, ← mul_sub, abs_mul, abs_signFactor_cast, one_mul]
    exact hnear

/-- The fixed-point value is within 2^-62 of the real basis value, and at most 1 in magnitude. -/
theorem basisApprox_near {d i : Nat} (hi : i < d) (k : Nat) :
    (basisFixed d i k).2 ≤ basisOne ∧ |basisApprox d i k - basisReal d i k| ≤ 1 / 2 ^ 62 := by
  rcases Nat.eq_zero_or_pos i with rfl | hpos
  · obtain ⟨hle, hnear⟩ := basisApprox_zero_near hi k
    exact ⟨hle, hnear.trans (by norm_num [basisOne])⟩
  · obtain ⟨hle, hnear⟩ := basisApprox_pos_near (by omega : 2 ≤ d) hpos.ne' k
    exact ⟨hle, hnear.trans (by norm_num)⟩

/-! ### The rounding, and the admissible values -/

/-- The exact value of a finite binary64 pattern. -/
theorem ratOfF64_of_fin {v : Word64} {neg : Bool} {m : Nat} (h : fp64 v = .fin neg m) :
    ratOfF64 v = signFactor neg * (m / 2 ^ 1074) := by
  cases neg <;> simp only [ratOfF64, h, signFactor, binary64_unitExp] <;> simp

/-- The distance of two signed magnitudes, as `basisAdmits` counts it. -/
def signedDistance (s t : Bool) (m n : Nat) : Nat := if s = t then distance m n else m + n

theorem abs_sub_eq_distance (m n : Nat) : |(m : ℝ) - n| = distance m n := by
  rcases le_total m n with h | h
  · rw [abs_sub_comm, abs_of_nonneg (sub_nonneg.mpr (Nat.cast_le.mpr h)), distance, Nat.sub_eq_zero_of_le h, Nat.zero_add,
      Nat.cast_sub h]
  · rw [abs_of_nonneg (sub_nonneg.mpr (Nat.cast_le.mpr h)), distance, Nat.sub_eq_zero_of_le h, Nat.add_zero,
      Nat.cast_sub h]

theorem abs_sub_eq_signedDistance (s t : Bool) (m n : Nat) :
    |((signFactor s : ℚ) : ℝ) * m - (signFactor t : ℚ) * n| = signedDistance s t m n := by
  by_cases hst : s = t
  · rw [hst, ← mul_sub, abs_mul, abs_signFactor_cast, one_mul, abs_sub_eq_distance, signedDistance, if_pos rfl]
  · have hsign : ((signFactor t : ℚ) : ℝ) = -(signFactor s : ℚ) := by
      rw [Bool.eq_not.mpr (Ne.symm hst), signFactor_not, Rat.cast_neg]
    rw [hsign, neg_mul, sub_neg_eq_add, ← mul_add, abs_mul, abs_signFactor_cast, one_mul, signedDistance, if_neg hst,
      abs_of_nonneg (by positivity), Nat.cast_add]

/-- A finite pattern's distance from the fixed-point value, in units of binary64. -/
theorem ratOfF64_sub_basisApprox {d i k : Nat} {v : Word64} {neg : Bool} {m : Nat} (h : fp64 v = .fin neg m) :
    |((ratOfF64 v : ℚ) : ℝ) - basisApprox d i k| =
      signedDistance neg (basisFixed d i k).1 m (basisUnits (basisFixed d i k).2) / 2 ^ 1074 := by
  have hunits : fixedReal (basisFixed d i k).2 = (basisUnits (basisFixed d i k).2 : Nat) / 2 ^ 1074 := by
    rw [fixedReal, basisUnits, basisOne, Nat.cast_mul, Nat.cast_pow, Nat.cast_pow, Nat.cast_ofNat,
      show (1074 : Nat) = 192 + 882 by norm_num, pow_add, mul_div_mul_right _ _ (by positivity)]
  rw [ratOfF64_of_fin h, basisApprox, hunits, ← abs_sub_eq_signedDistance]
  push_cast
  rw [← mul_div_assoc, ← mul_div_assoc, ← sub_div, abs_div, abs_of_pos (by positivity : (0 : ℝ) < 2 ^ 1074)]

/-- Rounding whole units errs by at most half the last place. -/
theorem roundPattern_distance {F : Format} (hF : 0 < F.fracBits) {num L K : Nat} (h : num ≤ 2 ^ L)
    (hL : L ≤ F.fracBits + K + 1) : distance (magnitudeUnits F (roundPattern F num 1)) num ≤ 2 ^ K := by
  have hplace : 2 ^ lastPlace F num 1 ≤ 2 * 2 ^ K := by
    have hlog : num.log2 < F.fracBits + K + 2 := by
      rw [Nat.log2_eq_log_two]
      exact Nat.log_lt_of_lt_pow' (by omega) (h.trans_lt (Nat.pow_lt_pow_right one_lt_two (by omega)))
    rw [← pow_succ']
    refine Nat.pow_le_pow_right two_pos ?_
    rw [lastPlace, Nat.div_one]
    omega
  have hgap : magnitudeUnits F (floorPattern F num 1 + 1) ≤ magnitudeUnits F (floorPattern F num 1) + 2 * 2 ^ K := by
    rw [floorPattern_units, succ_floorPattern_units, Nat.succ_mul]
    exact Nat.add_le_add_left hplace _
  obtain ⟨hlow, hhigh, ⟨hr, hhalf, -⟩ | ⟨hr, hhalf, -⟩⟩ := roundPattern_cases hF num one_pos <;>
    rw [hr, distance] <;> omega

/-- Units far below the overflow threshold round to a finite pattern. -/
theorem roundUnits_lt_infBits {F : Format} (hF : 0 < F.fracBits) (hE : 1 < F.expBits) {num K : Nat} (h : num ≤ 2 ^ K)
    (hK : K < 2 ^ F.expBits - 4) : roundUnits F num 1 < infBits F := by
  refine lt_of_le_of_ne (roundUnits_le _ _ _) fun hinf => ?_
  have hoverflow := (roundUnits_eq_infBits_iff hF hE num one_pos).mp hinf
  rw [mul_one] at hoverflow
  have hsignificand : 0 < 2 ^ (F.fracBits + 2) - 1 := Nat.sub_pos_of_lt (Nat.one_lt_two_pow (by omega))
  have hroom : 2 ^ K < (2 ^ (F.fracBits + 2) - 1) * 2 ^ (2 ^ F.expBits - 4) :=
    (Nat.pow_lt_pow_right one_lt_two hK).trans_le (Nat.le_mul_of_pos_left _ hsignificand)
  omega

/-- The default value is finite, of the fixed-point value's sign, and within 2^1021 units of it. -/
theorem fp64_basisDefault {d i k : Nat} (hle : (basisFixed d i k).2 ≤ basisOne) :
    ∃ u, fp64 (basisDefault d i k) = .fin (basisFixed d i k).1 u ∧
      distance u (basisUnits (basisFixed d i k).2) ≤ 2 ^ 1021 := by
  have hunits : basisUnits (basisFixed d i k).2 ≤ 2 ^ 1074 :=
    calc basisUnits (basisFixed d i k).2 ≤ 2 ^ 192 * 2 ^ 882 := Nat.mul_le_mul_right _ hle
      _ = 2 ^ 1074 := by rw [← pow_add]
  have hfinite : roundUnits binary64 (basisUnits (basisFixed d i k).2) 1 < infBits binary64 :=
    roundUnits_lt_infBits (by simp) (by simp) hunits (by simp)
  have huncut : roundUnits binary64 (basisUnits (basisFixed d i k).2) 1 =
      roundPattern binary64 (basisUnits (basisFixed d i k).2) 1 := by
    rw [roundUnits_eq_min] at hfinite ⊢
    omega
  refine ⟨magnitudeUnits binary64 (roundUnits binary64 (basisUnits (basisFixed d i k).2) 1), ?_, ?_⟩
  · rw [basisDefault, packRound, fp64_ofNat (packSign_lt _ _ hfinite.le), unpackFp_packSign _ _ hfinite]
    rfl
  · rw [huncut]
    exact roundPattern_distance (by simp) hunits (by simp)

theorem two_pow_div_two_pow_add (a c : Nat) : (2 : ℝ) ^ c / 2 ^ (a + c) = 1 / 2 ^ a := by
  rw [pow_add, div_mul_cancel_right₀ (by positivity), one_div]

/-- The default is within 2^-53 of the fixed-point value. -/
theorem basisDefault_near {d i k : Nat} (hle : (basisFixed d i k).2 ≤ basisOne) :
    |((ratOfF64 (basisDefault d i k) : ℚ) : ℝ) - basisApprox d i k| ≤ 1 / 2 ^ 53 := by
  obtain ⟨u, hu, hdist⟩ := fp64_basisDefault hle
  rw [ratOfF64_sub_basisApprox hu, signedDistance, if_pos rfl]
  calc (distance u (basisUnits (basisFixed d i k).2) : ℝ) / 2 ^ 1074 ≤ 2 ^ 1021 / 2 ^ (53 + 1021) :=
        div_le_div_of_nonneg_right (by exact_mod_cast hdist) (by positivity)
    _ = 1 / 2 ^ 53 := two_pow_div_two_pow_add 53 1021

/-- An admissible value is within 2^-52 and 2^-184 of the fixed-point value. -/
theorem basisAdmits_near {d i k : Nat} {v : Word64} (h : basisAdmits d i k v = true) :
    |((ratOfF64 v : ℚ) : ℝ) - basisApprox d i k| ≤ 1 / 2 ^ 52 + 1 / 2 ^ 184 := by
  obtain ⟨neg, m, hv⟩ := finite_of_basisAdmits h
  have hdist : signedDistance neg (basisFixed d i k).1 m (basisUnits (basisFixed d i k).2) ≤ 2 ^ 1022 + 2 ^ 890 := by
    simpa only [basisAdmits, hv, decide_eq_true_eq, signedDistance, distance] using h
  rw [ratOfF64_sub_basisApprox hv]
  calc (signedDistance neg (basisFixed d i k).1 m (basisUnits (basisFixed d i k).2) : ℝ) / 2 ^ 1074
      ≤ (2 ^ 1022 + 2 ^ 890) / 2 ^ 1074 := div_le_div_of_nonneg_right (by exact_mod_cast hdist) (by positivity)
    _ = 2 ^ 1022 / 2 ^ (52 + 1022) + 2 ^ 890 / 2 ^ (184 + 890) := add_div _ _ _
    _ = 1 / 2 ^ 52 + 1 / 2 ^ 184 := by rw [two_pow_div_two_pow_add, two_pow_div_two_pow_add]

/-- Settles O36: the fixed-point value is near the real one, and the default and the admissible values near the fixed-point
one. -/
theorem defaultBasisIsAdmissible : Obligations.DefaultBasisIsAdmissible := by
  intro d _ _
  have hdefault : BasisAdmissible .correctlyRounded d := fun i hi k _ => by
    obtain ⟨hle, hnear⟩ := basisApprox_near hi k
    exact (abs_sub_le _ _ _).trans ((add_le_add (basisDefault_near hle) hnear).trans (by norm_num))
  refine ⟨hdefault, fun n i hi k hk => ?_⟩
  rcases basis1d_cases (.other n) d i k with he | hadmits
  · rw [he]
    exact (hdefault i hi k hk).trans (by norm_num)
  · obtain ⟨-, hnear⟩ := basisApprox_near hi k
    exact (abs_sub_le _ _ _).trans ((add_le_add (basisAdmits_near hadmits) hnear).trans (by norm_num))

end Sys2Proof.Machine
end

section
/-! SUPPORT. The completions of SVD and ISVD (44_svd.md R211 to R214): the factors a solver's answer leaves in the buffers and
their frame, the reconstruction, and the properties P1 to P4 of what the filter of the answers keeps (statements O21, O22 and
O37). -/

namespace Sys2Proof.Machine

/-! ### What an answer leaves -/

theorem packElem_of_word {b : Buf} (hb : elemBits b = 64) (v : Word64) : packElem b v = v := by simp [packElem, hb]

/-- A stored answer's elements, within the extents of R63. -/
theorem storeSvd_some_elem (f : SvdTriple) (s : State) :
    (∀ i < s.rank, (storeSvd (some f) s).elem .sval i = f.s.getD i 0) ∧
      (∀ n < s.bh * s.rank, (storeSvd (some f) s).elem .svdu n = f.u.getD n 0) ∧
      ∀ n < s.bw * s.rank, (storeSvd (some f) s).elem .svdv n = f.v.getD n 0 := by
  refine ⟨fun i hi => (State.elem_withRegisters _ _ _ _ _ _).trans ?_,
    fun n hn => (State.elem_withRegisters _ _ _ _ _ _).trans ?_, fun n hn => (State.elem_withRegisters _ _ _ _ _ _).trans ?_⟩
  · rw [State.elem_writeFrom_other _ (by decide), State.elem_writeFrom_other _ (by decide), State.elem_writeFrom_zero _ _ hi,
      packElem_of_word rfl]
  · rw [State.elem_writeFrom_other _ (by decide), State.elem_writeFrom_zero _ _ hn, packElem_of_word rfl]
  · rw [State.elem_writeFrom_zero _ _ hn, packElem_of_word rfl]

/-- An answer changes the three factor buffers, SVD_VALID and SVDFAIL (R212). -/
theorem storeSvd_some_frame (f : SvdTriple) (s : State) :
    storeSvd (some f) s =
      { s with
        sval := (storeSvd (some f) s).sval, svdu := (storeSvd (some f) s).svdu, svdv := (storeSvd (some f) s).svdv
        status := { s.status with svdValid := true, svdFail := false } } := rfl

/-- SVD in flight completes with the solver's answer stored. -/
theorem exec_svd_of_answer {s : State} (hbusy : s.status.busy = true) {answer : Option SvdTriple}
    (h : svdSolver s.bh s.bw (coefMatrix s) = answer) : exec .svd s = .next (finishCommand (storeSvd answer s)) := by
  rw [exec_of_busy .svd hbusy, effectOf, effectSvd, h]

/-- Settles O21, by the solver's answer: the elements and the frame of a stored one, the two flags of a failure. -/
theorem svdStoresFactorsOrReportsFailure : Obligations.SvdStoresFactorsOrReportsFailure := by
  intro s hbusy
  cases h : svdSolver s.bh s.bw ((List.range (s.bw * s.bh)).map (s.elem .coef)) with
  | none => exact ⟨_, exec_svd_of_answer hbusy h, rfl⟩
  | some f =>
    obtain ⟨hsval, hsvdu, hsvdv⟩ := storeSvd_some_elem f s
    refine ⟨_, exec_svd_of_answer hbusy h, fun i hi => ?_, fun n hn => ?_, fun n hn => ?_, fun b n hs hu hv => ?_, ?_⟩
    · exact (elem_finishCommand _ _ _).trans (hsval i hi)
    · exact (elem_finishCommand _ _ _).trans (hsvdu n hn)
    · exact (elem_finishCommand _ _ _).trans (hsvdv n hn)
    · refine (elem_finishCommand _ b n).trans (storeSvd_elem_outside _ ?_)
      simp only [writeSet, outsideSpans_cons, Nat.zero_add]
      exact ⟨fun hb => .inr (hs hb.symm), fun hb => .inr (hu hb.symm), fun hb => .inr (hv hb.symm), by simp [OutsideSpans]⟩
    · exact congrArg finishCommand (storeSvd_some_frame f s)

/-! ### The reconstruction -/

/-- ISVD replaces COEF. -/
theorem effectIsvd_frame (s : State) : effectIsvd s = { s with coef := (effectIsvd s).coef } := rfl

/-- Settles O22, from the elements ISVD writes and its write set. -/
theorem isvdWritesReconstruction : Obligations.IsvdWritesReconstruction := by
  intro s hbusy
  refine ⟨_, exec_of_busy .isvd hbusy, fun a ha b hb => ?_, fun b n h => ?_, ?_⟩
  · obtain ⟨hmod, hdiv⟩ := cell_coordinates hb a
    have hcell : a * s.bw + b < s.area := (mul_add_lt_mul ha hb).trans_eq (Nat.mul_comm _ _)
    have hentry : (effectIsvd s).elem .coef (a * s.bw + b) = isvdEntry s a b := by
      rw [effectIsvd, State.elem_writeFrom_zero _ _ hcell, packElem_coef, hmod, hdiv]
    exact (elem_finishCommand _ _ _).trans hentry
  · exact elem_completed_outside (i := .isvd) (n := s.area) (bufs := [.coef]) (by simp) (by simp [writeSet])
      (h.imp_right (by simp))
  · exact congrArg finishCommand (effectIsvd_frame s)

/-! ### The properties of an admissible answer

Each is stated for values `x n` that agree with the answer's list within its extent: in the machine, those of the elements. -/

theorem allBelow_iff {n : Nat} {ok : Nat → Bool} : allBelow n ok = true ↔ ∀ k < n, ok k = true := by simp [allBelow]

theorem ratSum_eq_sum (n : Nat) (f : Nat → ℚ) : ratSum n f = ∑ k ∈ Finset.range n, f k := by
  induction n with
  | zero => rfl
  | succ n ih => rw [Finset.sum_range_succ, ← ih]; rfl

theorem closeTo_iff {a b : ℚ} : closeTo a b = true ↔ |a - b| ≤ 1 / 10 ^ 10 := by
  rw [closeTo, Bool.and_eq_true, decide_eq_true_eq, decide_eq_true_eq, svdTolerance, abs_sub_le_iff]

/-- P4 for one factor. -/
theorem columnsOrtho_near {rows r : Nat} {l : List Word64} (h : columnsOrtho rows r l = true) {x : Nat → ℚ}
    (hx : ∀ n < rows * r, x n = ratAt l n) {i j : Nat} (hi : i < r) (hj : j < r) :
    |∑ a ∈ Finset.range rows, x (a * r + i) * x (a * r + j) - (if i = j then 1 else 0)| ≤ 1 / 10 ^ 10 := by
  rw [columnsOrtho, Bool.and_eq_true] at h
  obtain ⟨-, hclose⟩ := h
  have hnear := closeTo_iff.mp (allBelow_iff.mp (allBelow_iff.mp hclose i hi) j hj)
  rw [ratSum_eq_sum] at hnear
  have hsum : ∑ a ∈ Finset.range rows, x (a * r + i) * x (a * r + j) =
      ∑ a ∈ Finset.range rows, ratAt l (a * r + i) * ratAt l (a * r + j) :=
    Finset.sum_congr rfl fun a ha => by
      have ha := Finset.mem_range.mp ha
      rw [hx _ (mul_add_lt_mul ha hi), hx _ (mul_add_lt_mul ha hj)]
  rwa [hsum]

/-- P3. -/
theorem svdRecon_near {bh bw r : Nat} {m : List Word64} {f : SvdTriple} (h : svdRecon bh bw r m f = true)
    {u sv v : Nat → ℚ} (hu : ∀ n < bh * r, u n = ratAt f.u n) (hsv : ∀ i < r, sv i = ratAt f.s i)
    (hv : ∀ n < bw * r, v n = ratAt f.v n) (hsmall : ∀ n < bh * bw, |ratAt m n| ≤ 16384) {a b : Nat} (ha : a < bh)
    (hb : b < bw) :
    |∑ i ∈ Finset.range r, u (a * r + i) * sv i * v (b * r + i) - ratAt m (a * bw + b)| ≤ 1 / 10 ^ 10 := by
  have hbound : allBelow (bh * bw) (fun n => decide (ratAt m n ≤ 16384) && decide (-16384 ≤ ratAt m n)) = true :=
    allBelow_iff.mpr fun n hn => by
      obtain ⟨hlow, hhigh⟩ := abs_le.mp (hsmall n hn)
      simp [hlow, hhigh]
  simp only [svdRecon, hbound, Bool.not_true, Bool.false_or] at h
  have hnear := closeTo_iff.mp (allBelow_iff.mp (allBelow_iff.mp h a ha) b hb)
  rw [ratSum_eq_sum] at hnear
  have hsum : ∑ i ∈ Finset.range r, u (a * r + i) * sv i * v (b * r + i) =
      ∑ i ∈ Finset.range r, ratAt f.u (a * r + i) * ratAt f.s i * ratAt f.v (b * r + i) :=
    Finset.sum_congr rfl fun i hi => by
      have hi := Finset.mem_range.mp hi
      rw [hu _ (mul_add_lt_mul ha hi), hsv i hi, hv _ (mul_add_lt_mul hb hi)]
  rwa [hsum]

/-- The solver's answer is admissible (log 6). -/
theorem svdAdmissible_of_answer {bh bw : Nat} {m : List Word64} {f : SvdTriple} (h : svdSolver bh bw m = some f) :
    svdAdmissible bh bw m f = true := by
  unfold svdSolver at h
  split at h
  · contradiction
  · split at h
    next hadm => exact Option.some.inj h ▸ hadm
    next => contradiction

/-- An admissible answer for a finite matrix has P1 to P4 (R211). -/
theorem svdAdmissible_properties {bh bw : Nat} {m : List Word64} {f : SvdTriple} (h : svdAdmissible bh bw m f = true)
    (hfinite : ∀ n < bh * bw, finite64 (m.getD n 0) = true) :
    svdNonneg (min bw bh) f = true ∧ svdSorted (min bw bh) f = true ∧ svdRecon bh bw (min bw bh) m f = true ∧
      columnsOrtho bh (min bw bh) f.u = true ∧ columnsOrtho bw (min bw bh) f.v = true := by
  have hall := allBelow_iff.mpr hfinite
  simp only [svdAdmissible, hall, svdOrtho, Bool.not_true, Bool.false_or, Bool.and_eq_true, and_assoc] at h
  obtain ⟨-, hproperties⟩ := h
  exact hproperties

/-! ### What SVD leaves valid -/

theorem coefMatrix_getD {s : State} {n : Nat} (hn : n < s.bh * s.bw) : (coefMatrix s).getD n 0 = s.elem .coef n := by
  have hn : n < s.area := hn.trans_eq (Nat.mul_comm _ _)
  simp [coefMatrix, hn]

/-- Settles O37: an answer passed the filter, and the machine holds its values. -/
theorem svdLeavesAdmissibleFactors : Obligations.SvdLeavesAdmissibleFactors := by
  intro s hbusy
  cases h : svdSolver s.bh s.bw (coefMatrix s) with
  | none => exact ⟨_, exec_svd_of_answer hbusy h, .inl rfl⟩
  | some f =>
    refine ⟨_, exec_svd_of_answer hbusy h, .inr fun hfinite => ?_⟩
    simp only [elem_finishCommand]
    obtain ⟨hs, hu, hv⟩ := storeSvd_some_elem f s
    have hm (n : Nat) (hn : n < s.bh * s.bw) := coefMatrix_getD hn
    obtain ⟨hnonneg, hsorted, hrecon, horthoU, horthoV⟩ := svdAdmissible_properties (svdAdmissible_of_answer h)
      fun n hn => (congrArg finite64 (hm n hn)).trans (hfinite n (hn.trans_eq (Nat.mul_comm _ _)))
    have hsRat (i : Nat) (hi : i < s.rank) := congrArg ratOfF64 (hs i hi)
    have huRat (n : Nat) (hn : n < s.bh * s.rank) := congrArg ratOfF64 (hu n hn)
    have hvRat (n : Nat) (hn : n < s.bw * s.rank) := congrArg ratOfF64 (hv n hn)
    refine ⟨fun i hi => ?_, fun i hi => ?_, fun i hi j hj => ?_, fun hsmall a ha b hb => ?_⟩
    · have hP1 := allBelow_iff.mp hnonneg i hi
      rw [Bool.and_eq_true, decide_eq_true_eq] at hP1
      rwa [hs i hi]
    · have hP2 := allBelow_iff.mp hsorted i (by omega)
      rw [hs i (Nat.lt_of_succ_lt hi), hs (i + 1) hi]
      exact of_decide_eq_true hP2
    · exact ⟨columnsOrtho_near horthoU huRat hi hj, columnsOrtho_near horthoV hvRat hi hj⟩
    · have hP3 := svdRecon_near hrecon huRat hsRat hvRat
        (fun n hn => by simpa only [ratAt, hm n hn] using hsmall n (hn.trans_eq (Nat.mul_comm _ _))) ha hb
      rwa [ratAt, hm _ (mul_add_lt_mul ha hb)] at hP3

end Sys2Proof.Machine
end

section
/-! SUPPORT. The control state: what an access, an acceptance, a completion and a reset leave of the flags, the latch and the
geometry the valid flags are bound to, and that no step stops the machine (statements O11, O49, O50, O54 and O58). -/

namespace Sys2Proof.Machine

/-! ### Raised faults, access errors and the interrupt line -/

/-- Acceptance latches the word, or raises the first failing check's fault and changes nothing else. -/
theorem acceptCommand_outcome (i : Instr) (s : State) :
    (firstFault (acceptChecks s i) = none ∧ acceptCommand i s = latched (encode i) s) ∨
    ∃ f, firstFault (acceptChecks s i) = some f ∧ acceptCommand i s = refusedWith f (encode i) s :=
  acceptCommand_cases i s

/-- A command whose first failing check is `f` leaves the fault's state. -/
theorem exec_of_failedCheck {i : Instr} {s : State} {f : CmdFault} (hidle : s.status.busy = false)
    (hf : firstFault (acceptChecks s i) = some f) : exec i s = .next (refusedWith f (encode i) s) := by
  rw [exec_idle_eq_checkedOutcome i hidle, checkedOutcome_eq, hf]
  rfl

/-- With DONE cleared and FAULT set the interrupt line is the fault's enable (60_exceptions.md R259). -/
theorem refusedWith_irq (f : CmdFault) (w : Word32) (s : State) : (refusedWith f w s).irq = s.ctrl.ieFault := rfl

/-- Settles O11: a failing check and an illegal word both leave `refusedWith`. -/
theorem raisedFaultChangesNothingElse : Obligations.RaisedFaultChangesNothingElse :=
  ⟨fun _ _ _ _ hidle hf => ⟨_, exec_of_failedCheck hidle hf, rfl, refusedWith_irq _ _ _⟩,
    fun _ _ _ hw hidle hfault => ⟨_, presentCommand_of_illegal hidle hfault hw, rfl, refusedWith_irq _ _ _⟩⟩

/-- A second access error changes nothing (60_exceptions.md R262). -/
theorem accessRefused_of_accErr (c : AccError) {s : State} (h : s.status.accErr = true) : accessRefused c s = s := by
  obtain ⟨hstatus, hinfo⟩ : (accessRefused c s).status = s.status ∧ (accessRefused c s).accInfo = s.accInfo :=
    ⟨by simp only [accessRefused, ← h], if_pos h⟩
  calc accessRefused c s = { s with status := (accessRefused c s).status, accInfo := (accessRefused c s).accInfo } := rfl
    _ = s := by rw [hstatus, hinfo]

/-- Bit 4 of a STATUS write clears the access-error record (20_memory.md R83). -/
theorem writeStatus_clears_accErr {v : Word64} (hv : v.getLsbD 4 = true) (s : State) :
    (writeStatus v s).status.accErr = false ∧ (writeStatus v s).accInfo = none := by
  simp [writeStatus, w1cFlags, hv]

/-- Settles O49: `flag ACCERR` writes ACCERR and, the first time, ACCINFO. -/
theorem firstAccessErrorIsKept : Obligations.FirstAccessErrorIsKept := by
  intro s c d
  refine ⟨flagAccErr_eq_accessRefused c s, accessRefused_of_accErr d rfl, rfl, rfl, fun hclear => ?_,
    fun v hv => writeStatus_clears_accErr hv _⟩
  simp [flagAccErr, hclear]

theorem writeCtrl_of_noReset {v : Word64} (hv : v.getLsbD 0 = false) (s : State) :
    writeCtrl v s = { s with ctrl := { ieDone := v.getLsbD 1, ieFault := v.getLsbD 2 } } :=
  if_neg (Bool.eq_false_iff.mp hv)

theorem hostWrite_ctrl (v : Word64) (s : State) : hostWrite 0x10 64 v s = .next (writeCtrl v s) := rfl

theorem State.irq_iff (s : State) : s.irq = true ↔
    (s.status.done = true ∧ s.ctrl.ieDone = true) ∨ (s.status.fault = true ∧ s.ctrl.ieFault = true) := by
  simp [State.irq]

/-- Settles O50: the write stores the two enables, and the line is a function of them and of DONE and FAULT. -/
theorem interruptLineFollowsEnables : Obligations.InterruptLineFollowsEnables := by
  intro s rest v h hv
  refine ⟨_, ?_, rfl, State.irq_iff _⟩
  rw [step_write h, hostWrite_ctrl, writeCtrl_of_noReset hv]

/-! ### The control state -/

/-- `t` has the fields of `s` that the control invariant speaks of. -/
def SameControl (s t : State) : Prop :=
  t = { t with
    cap := s.cap
    status := s.status
    accInfo := s.accInfo
    imgDim := s.imgDim
    blkReq := s.blkReq
    dctCtx := s.dctCtx
    phiShape := s.phiShape
    curCmd := s.curCmd }

theorem ControlSound.of_sameControl {s t : State} (hs : ControlSound s) (h : SameControl s t) : ControlSound t := by
  rw [h]
  exact hs

/-- The port stores an element and counts the index. -/
theorem sameControl_portWrite (s : State) (b : Buf) (i : Nat) (v : Word64) :
    SameControl s (bumpIndex (s.writeFrom b i 1 fun _ => v)) := by
  cases b <;> rfl

/-- An access leaves the control state, or all of it but a flagged access error. -/
def AccessKeepsControl (s t : State) : Prop := SameControl s t ∨ ∃ c, SameControl (flagAccErr c s) t

theorem accessKeepsControl_bufPortRead (s : State) : AccessKeepsControl s (bufPortRead s) := by
  unfold bufPortRead
  split
  · exact .inr ⟨_, rfl⟩
  split
  · exact .inr ⟨_, rfl⟩
  split
  · exact .inr ⟨_, rfl⟩
  · exact .inl rfl

theorem accessKeepsControl_hostRead (off : BitVec 8) (bits : Nat) (s : State) :
    AccessKeepsControl s (hostRead off bits s) := by
  unfold hostRead
  split
  · exact .inr ⟨_, rfl⟩
  · exact accessKeepsControl_bufPortRead s
  · exact .inl rfl

theorem accessKeepsControl_bufPortWrite (v : Word64) (s : State) : AccessKeepsControl s (bufPortWrite v s) := by
  unfold bufPortWrite
  split
  · exact .inr ⟨_, rfl⟩
  split
  · exact .inr ⟨_, rfl⟩
  next b _ =>
    split
    · exact .inr ⟨_, rfl⟩
    split
    · exact .inr ⟨_, rfl⟩
    · exact .inl (sameControl_portWrite s b _ v)

/-! ### The three parts of the control invariant -/

theorem CommandAccepted.of_idle {s : State} (h : s.status.busy = false) : CommandAccepted s :=
  fun hb => absurd (h.symm.trans hb) nofun

theorem acceptChecks_of_sameData {s t : State} (h : SameData s t) (i : Instr) : acceptChecks t i = acceptChecks s i := by
  rw [h]
  cases i <;> rfl

/-- The checks read the data only, so they hold as long as the same word stays in flight (20_memory.md R91, R94). -/
theorem CommandAccepted.of_sameData {s t : State} (hs : CommandAccepted s) (h : SameData s t)
    (hb : t.status.busy = s.status.busy) (hc : t.curCmd = s.curCmd) : CommandAccepted t := by
  intro hbusy
  obtain ⟨i, hwf, hdecode, hchecks⟩ := hs (hb ▸ hbusy)
  exact ⟨i, hwf, hc ▸ hdecode, by rwa [acceptChecks_of_sameData h]⟩

theorem GeometryBound.of_sameData {s t : State} (hs : GeometryBound s) (h : SameData s t) : GeometryBound t := by
  rw [h]
  exact hs

/-- With the flags the geometry is bound to at 0, any geometry will do. -/
theorem GeometryBound.of_invalid {s : State} (hmap : s.status.mapValid = false) (hdct : s.status.dctValid = false)
    (hsvd : s.status.svdValid = false) : GeometryBound s := by
  simp [GeometryBound, hmap, hdct, hsvd]

/-- A state with the flags and the access-error record of a reset is sound. -/
theorem controlSound_of_resetStatus {s : State} (hstatus : s.status = Status.reset) (hacc : s.accInfo = none) :
    ControlSound s := by
  refine ⟨?_, .of_idle (by rw [hstatus]; rfl), .of_invalid ?_ ?_ ?_⟩ <;> simp [FlagsCoherent, hstatus, hacc, Status.reset]

theorem softReset_accInfo (s : State) : (softReset s).accInfo = none := by
  unfold softReset
  split
  · exact forgetSpans_keeps State.accInfo State.setBuf_accInfo _ _ _
  · rfl

theorem controlSound_softReset (s : State) : ControlSound (softReset s) :=
  controlSound_of_resetStatus (softReset_status s) (softReset_accInfo s)

theorem controlSound_hardReset (s : State) : ControlSound (hardReset s) := controlSound_of_resetStatus rfl rfl

namespace ControlSound

variable {s t : State}

/-! ### The host's accesses -/

theorem flagAccErr (hs : ControlSound s) (c : AccError) : ControlSound (flagAccErr c s) := by
  obtain ⟨⟨hbusy, hexclusive, hacc, hsvd⟩, haccepted, hgeometry⟩ := hs
  refine ⟨⟨hbusy, hexclusive, ?_, hsvd⟩, haccepted.of_sameData (sameData_flagAccErr c s) rfl rfl,
    hgeometry.of_sameData (sameData_flagAccErr c s)⟩
  cases h : s.status.accErr <;> simp [Machine.flagAccErr, h, hacc]

theorem of_access (hs : ControlSound s) (h : AccessKeepsControl s t) : ControlSound t := by
  rcases h with h | ⟨c, h⟩
  · exact hs.of_sameControl h
  · exact (hs.flagAccErr c).of_sameControl h

/-- A STATUS write clears flags only, ACCINFO together with ACCERR. -/
theorem writeStatus (hs : ControlSound s) (v : Word64) : ControlSound (writeStatus v s) := by
  obtain ⟨⟨hbusy, hexclusive, hacc, hsvd⟩, haccepted, hgeometry⟩ := hs
  refine ⟨⟨fun hb => ?_, fun h => hexclusive ?_, ?_, hsvd⟩, haccepted.of_sameData (sameData_writeStatus v s) rfl rfl,
    hgeometry.of_sameData (sameData_writeStatus v s)⟩
  · obtain ⟨hdone, hfault⟩ := hbusy hb
    simp [Machine.writeStatus, w1cFlags, hdone, hfault]
  · simp only [Machine.writeStatus, w1cFlags, Bool.and_eq_true] at h
    obtain ⟨⟨hdone, -⟩, hfault, -⟩ := h
    exact ⟨hdone, hfault⟩
  · cases hv : v.getLsbD 4 with
    | false => simpa only [Machine.writeStatus, w1cFlags, hv, Bool.not_false, Bool.and_true, Bool.false_eq_true,
        if_false] using hacc
    | true =>
      obtain ⟨haccErr, hinfo⟩ := writeStatus_clears_accErr hv s
      exact iff_of_true hinfo haccErr

theorem writeCtrl (hs : ControlSound s) (v : Word64) : ControlSound (writeCtrl v s) := by
  unfold Machine.writeCtrl
  split
  · exact controlSound_softReset s
  · exact hs.of_sameControl rfl

/-- A geometry write reaches an idle engine only, and clears the flags bound to the geometry. -/
theorem writeDims (hs : ControlSound s) (hidle : s.status.busy = false) (img blk : Dims) :
    ControlSound { s with imgDim := img, blkReq := blk, status := clearGeometryFlags s.status } := by
  obtain ⟨⟨hbusy, hexclusive, hacc, -⟩, -, -⟩ := hs
  exact ⟨⟨hbusy, hexclusive, hacc, nofun⟩, .of_idle hidle, .of_invalid rfl rfl rfl⟩

/-! ### Acceptance -/

/-- A raised fault comes to an idle engine and clears DONE. -/
theorem refusedWith (hs : ControlSound s) (hidle : s.status.busy = false) (f : CmdFault) (w : Word32) :
    ControlSound (refusedWith f w s) := by
  obtain ⟨⟨-, -, hacc, hsvd⟩, -, hgeometry⟩ := hs
  exact ⟨⟨fun hb => absurd (hidle.symm.trans hb) nofun, nofun, hacc, hsvd⟩, .of_idle hidle, hgeometry.of_sameData rfl⟩

/-- A latched word is the word of a well-formed command whose checks hold, and FAULT was 0. -/
theorem latched {i : Instr} (hs : ControlSound s) (hwf : i.wf = true) (hfault : s.status.fault = false)
    (hchecks : firstFault (acceptChecks s i) = none) : ControlSound (latched (encode i) s) := by
  obtain ⟨⟨-, -, hacc, hsvd⟩, -, hgeometry⟩ := hs
  have hdata : SameData s (Machine.latched (encode i) s) := rfl
  exact ⟨⟨fun _ => ⟨rfl, hfault⟩, nofun, hacc, hsvd⟩,
    fun _ => ⟨i, hwf, decodeReadsEncodedCommand i hwf, by rwa [acceptChecks_of_sameData hdata]⟩,
    hgeometry.of_sameData hdata⟩

theorem presentCommand (hs : ControlSound s) {w : Word32} (ht : presentCommand w s = .next t) : ControlSound t := by
  rcases presentCommand_next ht with ⟨-, rfl⟩ | ⟨-, -, rfl⟩ | ⟨hidle, -, -, rfl⟩ | ⟨hidle, hfault, i, hw, rfl⟩
  · exact hs.flagAccErr _
  · exact hs.flagAccErr _
  · exact hs.refusedWith hidle .illegalCmd w
  · obtain ⟨hwf, -⟩ := encodeWritesDecodedWord w i hw
    rcases acceptCommand_outcome i s with ⟨hchecks, h⟩ | ⟨f, -, h⟩ <;> rw [h]
    · exact hs.latched hwf hfault hchecks
    · exact hs.refusedWith hidle f _

theorem hostWrite (hs : ControlSound s) {off : BitVec 8} {bits : Nat} {v : Word64}
    (ht : hostWrite off bits v s = .next t) : ControlSound t := by
  rcases hostWrite_next ht with rfl | rfl | rfl | rfl | rfl | hc | ⟨hidle, rfl | rfl | rfl | rfl⟩ | rfl
  · exact hs
  · exact hs.flagAccErr _
  · exact hs.flagAccErr _
  · exact hs.writeCtrl v
  · exact hs.writeStatus v
  · exact hs.presentCommand hc
  · exact hs.writeDims hidle (writtenDims v) s.blkReq
  · exact hs.writeDims hidle s.imgDim (writtenDims v)
  · exact hs.of_sameControl rfl
  · exact hs.of_sameControl rfl
  · exact hs.of_access (accessKeepsControl_bufPortWrite v s)

end ControlSound

/-! ### Completion -/

section Geometry

variable {s t : State} (h : SameOutside s t)

include h

theorem SameOutside.imgOk : t.imgOk = s.imgOk := by
  rw [State.imgOk, State.width, State.height, State.maxPix, h.imgDim, h.cap]
  rfl

theorem SameOutside.shapeOk : t.shapeOk = s.shapeOk := by
  rw [State.shapeOk, State.bw, State.bh, State.bMax, h.blkReq, h.cap]
  rfl

theorem SameOutside.totBlk : t.totBlk = s.totBlk := by
  simp only [State.totBlk, State.wWave, State.hWave, State.width, State.height, State.bw, State.bh, h.imgDim, h.blkReq]

theorem SameOutside.phiOk (hv : t.status.phiValid = s.status.phiValid) (hp : t.phiShape = s.phiShape) :
    t.phiOk = s.phiOk := by
  rw [State.phiOk, State.bw, State.bh, hv, hp, h.blkReq]
  rfl

end Geometry

/-- The tensor just built is the block shape's (43_dct.md R191, R192). -/
theorem phiOk_buildPhi (s : State) : (buildPhi s).phiOk = true := by
  obtain ⟨hw, hh⟩ := buildPhi_phiShape s
  have hblk := (sameOutside_buildPhi s).blkReq
  have hvalid : (buildPhi s).status.phiValid = true := rfl
  simp [State.phiOk, hvalid, hw, hh, State.bw, State.bh, hblk]

theorem phiOk_ensurePhi (s : State) : (ensurePhi s).phiOk = true := by
  rcases ensurePhi_cases s with ⟨hp, h⟩ | ⟨-, h⟩ <;> rw [h]
  · exact hp
  · exact phiOk_buildPhi s

/-- DCT leaves the slot as the rebuild on demand does. -/
theorem phiOk_effectDct (ch : Channel) (k : Nat) (s : State) : (effectDct ch k s).phiOk = true := by
  have hsame : SameOutside (ensurePhi s) (effectDct ch k s) := by constructor <;> simp [effectDct, dctFlags]
  rw [hsame.phiOk (by simp [effectDct, dctFlags]) (by simp [effectDct])]
  exact phiOk_ensurePhi s

/-- No command makes a matching basis slot a stale one (43_dct.md R194). -/
theorem phiOk_effectOf (i : Instr) {s : State} (h : s.phiOk = true) : (effectOf i s).phiOk = true := by
  have hother (hphi : ∀ p ∈ writeSet s i, Buf.phi ≠ p.buf) : (effectOf i s).phiOk = true := by
    obtain ⟨hvalid, hshape⟩ := effectOf_phiSlot hphi
    rw [(sameOutside_effect i s).phiOk hvalid hshape, h]
  cases i with
  | dctinit => exact phiOk_buildPhi s
  | dct ch k => exact phiOk_effectDct ch k s
  | _ => exact hother (by simp [writeSet])

/-- DCT alone writes DCT_VALID and DCTCTX. -/
theorem effectOf_dctBinding {i : Instr} (hi : ∀ ch k, i ≠ .dct ch k) (s : State) :
    (effectOf i s).status.dctValid = s.status.dctValid ∧ (effectOf i s).dctCtx = s.dctCtx := by
  cases i with
  | dct ch k => exact absurd rfl (hi ch k)
  | mapgen => simp [effectOf, effectMapgen, mapFlags]
  | dctinit => simp [effectOf, effectDctinit, buildPhi, phiFlags]
  | svd =>
    cases ha : svdSolver s.bh s.bw (coefMatrix s) <;> simp [effectOf, effectSvd, storeSvd, ha, svdDoneFlags, svdFailFlags]
  | _ => simp [effectOf, effectRgb2yuv, effectYuv2rgb, effectDwt, effectIdwt, effectIdct, effectIsvd]

/-- SVD alone writes SVD_VALID and SVDFAIL. -/
theorem effectOf_svdFlags {i : Instr} (hi : i ≠ .svd) (s : State) :
    (effectOf i s).status.svdValid = s.status.svdValid ∧ (effectOf i s).status.svdFail = s.status.svdFail := by
  cases i with
  | svd => exact absurd rfl hi
  | mapgen => simp [effectOf, effectMapgen, mapFlags]
  | dctinit => simp [effectOf, effectDctinit, buildPhi, phiFlags]
  | dct ch k =>
    rcases ensurePhi_cases s with ⟨-, h⟩ | ⟨-, h⟩ <;> simp [effectOf, effectDct, dctFlags, h, buildPhi, phiFlags]
  | _ => simp [effectOf, effectRgb2yuv, effectYuv2rgb, effectDwt, effectIdwt, effectIdct, effectIsvd]

/-- Whatever the solver answers, SVD leaves one of the two flags at 0 (44_svd.md R212). -/
theorem storeSvd_flags (answer : Option SvdTriple) (s : State) :
    ¬((storeSvd answer s).status.svdValid = true ∧ (storeSvd answer s).status.svdFail = true) := by
  cases answer <;> simp [storeSvd, svdDoneFlags, svdFailFlags]

theorem effectOf_svdExclusive (i : Instr) {s : State} (h : ¬(s.status.svdValid = true ∧ s.status.svdFail = true)) :
    ¬((effectOf i s).status.svdValid = true ∧ (effectOf i s).status.svdFail = true) := by
  by_cases hi : i = .svd
  · subst hi
    exact storeSvd_flags _ s
  · obtain ⟨hvalid, hfail⟩ := effectOf_svdFlags hi s
    rwa [hvalid, hfail]

/-- DCT_VALID stays bound: DCT was checked for its own block, and no other command moves the binding. -/
theorem dctBound_effectOf {i : Instr} {s : State}
    (hs : s.status.dctValid = true → s.imgOk = true ∧ s.shapeOk = true ∧ s.dctCtx.k.toNat < s.totBlk ∧ s.phiOk = true)
    (hchecks : ∀ c ∈ acceptChecks s i, c.1 = true) (h : (effectOf i s).status.dctValid = true) :
    s.imgOk = true ∧ s.shapeOk = true ∧ (effectOf i s).dctCtx.k.toNat < s.totBlk ∧ (effectOf i s).phiOk = true := by
  by_cases hi : ∀ ch k, i ≠ .dct ch k
  · obtain ⟨hvalid, hctx⟩ := effectOf_dctBinding hi s
    obtain ⟨himg, hshape, hblock, hphi⟩ := hs (hvalid ▸ h)
    exact ⟨himg, hshape, hctx ▸ hblock, phiOk_effectOf i hphi⟩
  · push Not at hi
    obtain ⟨ch, k, rfl⟩ := hi
    simp only [acceptChecks, List.forall_mem_cons, decide_eq_true_eq] at hchecks
    obtain ⟨himg, hshape, hblock, -⟩ := hchecks
    have hctx : (effectDct ch k s).dctCtx.k.toNat ≤ k := Nat.mod_le _ _
    exact ⟨himg, hshape, hctx.trans_lt hblock, phiOk_effectDct ch k s⟩

/-- The checks of a command are what the flag it sets is bound to. -/
theorem GeometryBound.effectOf {i : Instr} {s : State} (hs : GeometryBound s)
    (hchecks : firstFault (acceptChecks s i) = none) : GeometryBound (effectOf i s) := by
  obtain ⟨hmap, hdct, hsvd⟩ := hs
  rw [firstFault_none_iff] at hchecks
  have hsame := sameOutside_effect i s
  simp only [GeometryBound, hsame.imgOk, hsame.shapeOk, hsame.totBlk]
  refine ⟨fun h => ?_, dctBound_effectOf hdct hchecks, fun h => ?_⟩
  · by_cases hi : i = .mapgen
    · subst hi
      exact hchecks _ List.mem_cons_self
    · exact hmap (effectOf_mapValid hi s ▸ h)
  · by_cases hi : i = .svd
    · subst hi
      exact hchecks _ List.mem_cons_self
    · obtain ⟨hvalid, -⟩ := effectOf_svdFlags hi s
      exact hsvd (hvalid ▸ h)

/-- A completion turns BUSY into DONE; FAULT was 0, and the checks still hold. -/
theorem ControlSound.complete {i : Instr} {s : State} (hs : ControlSound s) (hb : s.status.busy = true)
    (hd : decode s.curCmd = .ok i) : ControlSound (finishCommand (effectOf i s)) := by
  have hchecks := hs.checks_hold hb hd
  obtain ⟨⟨hbusy, -, hacc, hsvd⟩, -, hgeometry⟩ := hs
  obtain ⟨-, hfault⟩ := hbusy hb
  have hsame := sameOutside_effect i s
  have hacc' : (effectOf i s).accInfo = none ↔ (effectOf i s).status.accErr = false := by
    rw [hsame.accInfo, hsame.accErr, hacc]
  have hnofault : (effectOf i s).status.fault = false := hsame.fault.trans hfault
  exact ⟨⟨nofun, fun ⟨_, hf⟩ => absurd (hnofault.symm.trans hf) nofun, hacc', effectOf_svdExclusive i hsvd⟩,
    .of_idle rfl, (hgeometry.effectOf hchecks).of_sameData rfl⟩

/-! ### Every step -/

namespace ControlSound

variable {s t : State}

theorem engineStep (hs : ControlSound s) (ht : engineStep s = .next t) : ControlSound t := by
  rcases engineStep_next ht with ⟨-, rfl⟩ | ⟨hb, i, hd, rfl⟩
  · exact hs
  · exact hs.complete hb hd

theorem applyEvent (hs : ControlSound s) {e : Event} (ht : applyEvent e s = .next t) : ControlSound t := by
  cases e with
  | read off bits =>
    obtain rfl := Host.Outcome.next.inj ht
    exact hs.of_access (accessKeepsControl_hostRead off bits s)
  | write off bits v => exact hs.hostWrite ht
  | complete => exact hs.engineStep ht
  | hardReset =>
    obtain rfl := Host.Outcome.next.inj ht
    exact controlSound_hardReset s

theorem takeEvent (hs : ControlSound s) (rest : List Event) : ControlSound { s with events := rest } :=
  hs.of_sameControl rfl

end ControlSound

/-- Settles O54: a step is one event or a completion, and each keeps the three parts of the invariant. -/
theorem stepKeepsControlSound : Obligations.StepKeepsControlSound := by
  intro s t hs ht
  cases he : s.events with
  | nil =>
    rw [step_of_nil he] at ht
    exact hs.engineStep ht
  | cons e rest =>
    rw [step_of_cons he] at ht
    exact (hs.takeEvent rest).applyEvent ht

/-! ### No step stops the machine -/

/-- The engine's turn stops only at a word in flight that does not decode, and an accepted one does. -/
theorem engineStep_progress {s : State} (hs : ControlSound s) : ∃ t, engineStep s = .next t := by
  cases hb : s.status.busy with
  | false => exact ⟨s, engineStep_of_idle hb⟩
  | true =>
    obtain ⟨-, haccepted, -⟩ := hs
    obtain ⟨i, -, hd, -⟩ := haccepted hb
    exact ⟨_, (engineStep_of_busy hb hd).trans (exec_of_busy i hb)⟩

theorem presentCommand_progress (w : Word32) (s : State) : ∃ t, presentCommand w s = .next t := by
  cases hb : s.status.busy with
  | true => exact ⟨_, presentCommand_of_busy w hb⟩
  | false =>
    cases hf : s.status.fault with
    | true => exact ⟨_, presentCommand_of_fault hb hf⟩
    | false =>
      cases hw : decode w with
      | error e => exact ⟨_, presentCommand_of_illegal hb hf hw⟩
      | ok i => exact ⟨_, (presentCommand_of_legal hb hf hw).trans (exec_of_idle i hb)⟩

/-- A host write but to CMD answers a next state by its definition. -/
theorem hostWrite_progress (off : BitVec 8) (bits : Nat) (v : Word64) (s : State) :
    ∃ t, hostWrite off bits v s = .next t := by
  unfold hostWrite
  cases hostTarget off bits with
  | none => exact ⟨_, rfl⟩
  | some r =>
    cases r with
    | cmd => exact presentCommand_progress _ s
    | _ => exact ⟨_, rfl⟩

theorem applyEvent_progress (e : Event) {s : State} (hs : ControlSound s) : ∃ t, applyEvent e s = .next t := by
  cases e with
  | read off bits => exact ⟨_, rfl⟩
  | write off bits v => exact hostWrite_progress off bits v s
  | complete => exact engineStep_progress hs
  | hardReset => exact ⟨_, rfl⟩

theorem step_progress {s : State} (hs : ControlSound s) : ∃ t, step s = .next t := by
  cases he : s.events with
  | nil =>
    rw [step_of_nil he]
    exact engineStep_progress hs
  | cons e rest =>
    rw [step_of_cons he]
    exact applyEvent_progress e (hs.takeEvent rest)

/-- Settles O58, by induction on the length of the run: progress and preservation of each step. -/
theorem engineNeverStops : Obligations.EngineNeverStops := by
  intro s hs n
  induction n generalizing s with
  | zero => exact ⟨s, rfl, hs⟩
  | succ n ih =>
    obtain ⟨t, ht⟩ := step_progress hs
    obtain ⟨u, hu, hsound⟩ := ih t (stepKeepsControlSound s t hs ht)
    exact ⟨u, (run_succ ht n).trans hu, hsound⟩

end Sys2Proof.Machine
end

section
/-! SUPPORT. The two resets (70_reset_and_hazards.md R290 to R292): the registers a reset leaves, the elements a soft reset frees
and keeps, and what the reset state reads (statements O51 and O52). -/

namespace Sys2Proof.Machine

/-! ### Which elements forgetting frees -/

/-- Every element of a span reads as its free value, also where an unlisted element would read the same. -/
theorem State.elem_scatter_free (s : State) (w : ∀ b, bufferWf s.unwritten (s.buf b) = true) (b : Buf) {base n j : Nat}
    (seed : Nat) (hbase : base ≤ j) (hj : j < base + n) :
    (s.scatter b n (fun k => base + k) fun _ => .free seed).elem b j = packElem b (Config.freeElem seed (bufCode b) j) := by
  obtain ⟨k, rfl⟩ := Nat.exists_eq_add_of_le hbase
  have hit := readElem_scatter_hit (idx := fun k => base + k) (el := fun _ => .free seed) (.inr (w b))
    (fun _ _ _ _ => Nat.add_left_cancel) (Nat.lt_of_add_lt_add_left hj)
  have hunwritten : (s.scatter b n (fun k => base + k) fun _ => .free seed).unwritten = s.unwritten := by simp [State.unwritten]
  rw [State.elem, hunwritten, State.scatter, State.buf_setBuf_same, hit, elemValue]

/-- Forgetting spans frees every element of each, a later span that overlaps it included. -/
theorem forgetSpans_elem_inside (seed : Nat) (l : List Span) (s : State) (w : ∀ b, bufferWf s.unwritten (s.buf b) = true)
    {b : Buf} {j : Nat} (h : ∃ p ∈ l, p.buf = b ∧ p.base ≤ j ∧ j < p.base + p.count) :
    (forgetSpans seed l s).elem b j = packElem b (Config.freeElem seed (bufCode b) j) := by
  induction l generalizing s with
  | nil => simp at h
  | cons p t ih =>
    have wt := s.scatter_wf p.buf p.count (fun k => p.base + k) (fun _ => .free seed) w
    by_cases ht : ∃ q ∈ t, q.buf = b ∧ q.base ≤ j ∧ j < q.base + q.count
    · exact ih _ wt ht
    · obtain ⟨rfl, hbase, hj⟩ : p.buf = b ∧ p.base ≤ j ∧ j < p.base + p.count := by
        simpa only [List.exists_mem_cons_iff, ht, or_false] using h
      rw [forgetSpans, forgetSpans_elem_outside seed t _ wt fun q hq hb hin => ht ⟨q, hq, hb, hin⟩]
      exact s.elem_scatter_free w p.buf seed hbase hj

/-! ### The soft reset -/

/-- The registers and the host's side of `s` with the memory of `m`. -/
def State.withMemoryOf (s m : State) : State :=
  { s with
    pixin := m.pixin
    pixout := m.pixout
    alpha := m.alpha
    chan := m.chan
    sba := m.sba
    sbh := m.sbh
    sbv := m.sbv
    sbd := m.sbd
    bmap := m.bmap
    coef := m.coef
    sval := m.sval
    phi := m.phi
    svdu := m.svdu
    svdv := m.svdv
    freeCount := m.freeCount }

theorem State.withMemoryOf_setBuf (s m : State) (b : Buf) (c : Buffer) : (s.setBuf b c).withMemoryOf m = s.withMemoryOf m := by
  cases b <;> rfl

theorem forgetSpans_eq_withMemoryOf (seed : Nat) (l : List Span) (s : State) :
    forgetSpans seed l s = s.withMemoryOf (forgetSpans seed l s) :=
  forgetSpans_keeps (State.withMemoryOf · _) (fun s b c => s.withMemoryOf_setBuf _ b c) seed l s

theorem softReset_of_idle {s : State} (h : s.status.busy = false) : softReset s = resetRegisters s :=
  if_neg (Bool.eq_false_iff.mp h)

theorem softReset_of_busy {s : State} (h : s.status.busy = true) :
    softReset s = forgetSpans s.freeCount (inFlightWrites s) { resetRegisters s with freeCount := s.freeCount + 1 } :=
  if_pos h

/-- Idle or not, a soft reset is `resetRegisters` but for the memory. -/
theorem softReset_eq_withMemoryOf (s : State) : softReset s = (resetRegisters s).withMemoryOf (softReset s) := by
  cases h : s.status.busy with
  | false =>
    rw [softReset_of_idle h]
    rfl
  | true =>
    rw [softReset_of_busy h]
    exact forgetSpans_eq_withMemoryOf _ _ _

theorem resetRegisters_elem (s : State) (n : Nat) (b : Buf) (i : Nat) :
    State.elem { resetRegisters s with freeCount := n } b i = s.elem b i :=
  State.elem_congr rfl (by cases b <;> rfl) i

/-- The elements after a soft reset: those of the write set in flight are free, the others are kept. -/
theorem softReset_elem {s : State} (w : Memory.wf s = true) (b : Buf) (i : Nat) :
    if s.status.busy = true ∧ ∃ p ∈ inFlightWrites s, p.buf = b ∧ p.base ≤ i ∧ i < p.base + p.count
      then (softReset s).elem b i = packElem b (Config.freeElem s.freeCount (bufCode b) i)
      else (softReset s).elem b i = s.elem b i := by
  have wr : Memory.wf { resetRegisters s with freeCount := s.freeCount + 1 } = true :=
    memory_wf_congr rfl (fun b => by cases b <;> rfl) w
  split_ifs with hin
  · obtain ⟨hb, hspan⟩ := hin
    rw [softReset_of_busy hb]
    exact forgetSpans_elem_inside _ _ _ ((memory_wf_iff _).mp wr) hspan
  · cases hb : s.status.busy with
    | false =>
      rw [softReset_of_idle hb]
      exact resetRegisters_elem s s.freeCount b i
    | true =>
      rw [softReset_of_busy hb, forgetSpans_elem_outside _ _ _ ((memory_wf_iff _).mp wr)
        fun p hp hbuf hrange => hin ⟨hb, p, hp, hbuf, hrange⟩]
      exact resetRegisters_elem s _ b i

theorem writeCtrl_of_reset {v : Word64} (hv : v.getLsbD 0 = true) (s : State) : writeCtrl v s = softReset s := if_pos hv

/-- Settles O51: the write is `softReset`, which is `resetRegisters` but for the memory, and in the memory frees the spans of
the command in flight. Taking the event changes no data. -/
theorem softResetKeepsBuffers : Obligations.SoftResetKeepsBuffers := by
  intro s rest v w h hv
  have hsame : SameData s { s with events := rest } := rfl
  refine ⟨(resetRegisters { s with events := rest }).withMemoryOf (softReset { s with events := rest }), ?_,
    rfl, rfl, rfl, rfl, rfl, rfl, rfl, rfl, rfl, rfl, rfl, rfl, rfl, rfl, fun hidle b => ?_, fun b i => ?_⟩
  · rw [step_write h, hostWrite_ctrl, writeCtrl_of_reset hv, ← softReset_eq_withMemoryOf]
  · rw [← softReset_eq_withMemoryOf, softReset_of_idle (s := { s with events := rest }) hidle, resetRegisters_buf, hsame.buf]
  · rw [← softReset_eq_withMemoryOf, ← hsame.elem]
    exact softReset_elem (memory_wf_congr hsame.unwrittenSeed hsame.buf w) b i

/-! ### The hardware reset -/

theorem step_hardReset {s : State} {rest : List Event} (h : s.events = .hardReset :: rest) :
    step s = .next (hardReset { s with events := rest }) :=
  step_of_cons h

/-- The registers 10_state.md R68 lists as 0 after reset; WAVEDIM and TOTBLK follow from the empty image. -/
theorem readReg_reset_zero : ∀ r ∈ [Reg.ctrl, .status, .faultInfo, .cmd, .imgDim, .blkReq, .waveDim, .totBlk, .dctCtx,
    .phiShape, .bufSel, .bufIdx, .accInfo], readReg State.reset r = 0 := by
  decide +kernel

/-- Settles O52: the event is `hardReset`, which keeps only what is not the engine's, and the reads are those of one state. -/
theorem hardResetLeavesResetState : Obligations.HardResetLeavesResetState :=
  ⟨fun _ _ h => step_hardReset h, readReg_reset_zero, rfl, rfl, rfl, rfl⟩

end Sys2Proof.Machine
end
